-- ==== Sys2Proof/Word.lean ====
section
/-! DEFINITION. The word types of the RTU transport block (spec/00_scope.md R7, R8): every quantity is an unsigned bit vector of a fixed width. -/

namespace Sys2Proof

/-- A byte: one buffer cell, one character on the line, an address (R8, R30). -/
abbrev Byte := BitVec 8

/-- The 16-bit CRC value (R62, R130). -/
abbrev Half := BitVec 16

/-- An operation word, a response's data, a microsecond threshold (R29, R90, R105). -/
abbrev Word := BitVec 32

/-- `W_POS` = 12 bits: `rcv_pos`, `snd_ptr`, `snd_cnt` and every offset or length operand (R7). -/
abbrev Pos := BitVec 12

/-- `W_BAUD` = 24 bits: the baud-rate register and operand (R7, R22). -/
abbrev Baud := BitVec 24

end Sys2Proof
end

