-- ==== Sys2Proof/Config.lean ====
section
/-! DEFINITION. What is fixed for the machine: the constants and the open parameters of spec/00_scope.md R7, and the values the spec leaves free (spec/93_implementation_defined.md U1, U9). -/

namespace Sys2Proof.Config

/-- The three `OPEN` parameters of R7, fixed for one instance of the block. They travel in `State.params`,
so that a statement about every state is a statement for every choice of them (log entry 4). -/
structure Params where
  /-- `PDU_MAX`: "the protocol's maximum PDU length" in bytes. -/
  pduMax : Nat
  /-- `RESPOND_TIMEOUT_US`: the threshold armed for `RespondTimeout`. -/
  respondTimeoutUs : Word
  /-- `CONVERT_DELAY_US`: the threshold armed for `ConvertDelay`. -/
  convertDelayUs : Word
  deriving DecidableEq, Repr

/-- `BUF_SIZE = PDU_MAX + 3` (R7, R60). -/
def Params.bufSize (p : Params) : Nat := p.pduMax + 3

/-- The constraint R7 puts on `PDU_MAX`: 1 <= PDU_MAX <= 4092. -/
abbrev Params.Legal (p : Params) : Prop := 1 ≤ p.pduMax ∧ p.pduMax ≤ 4092

/-- `MIN_FRAME`: the least valid received serial-PDU length (R7, R69). -/
def minFrame : Nat := 4

/-- `BCAST_ADDR`: the broadcast sentinel address (R7). -/
def bcastAddr : Byte := 0x00#8

/-- `BAUD_FAST_LIMIT`: the baud rate above which t3.5 is fixed (R7). -/
def baudFastLimit : Nat := 19200

/-- `T35_FAST_US`: the fixed t3.5 above the limit (R7). -/
def t35FastUs : Nat := 1750

/-- `T35_NUM` = 3.5 × 11 × 1 000 000 (R7). -/
def t35Num : Nat := 38500000

/-- CRC-16/MODBUS: the initial value (R130). -/
def crcInit : Half := 0xFFFF#16

/-- CRC-16/MODBUS: the polynomial in reflected form (R130). -/
def crcPoly : Half := 0xA001#16

/-- `RESPOND_TIMEOUT_US` of the instance that `State.reset` describes: OPEN in R7, so it has no body (log entry 4). -/
opaque respondTimeoutUs : Word

/-- `CONVERT_DELAY_US` of the instance that `State.reset` describes: OPEN in R7, so it has no body (log entry 4). -/
opaque convertDelayUs : Word

/-- The byte that buffer cell `off` holds from a reset until it is first written: "one fixed but unknown byte"
(spec/93_implementation_defined.md U1; R51). The first argument tells one reset from another (log entries 5, 6). -/
opaque bufAtReset : Nat → Nat → Byte

/-- The instance `State.reset` describes: `PDU_MAX` at the default 253 that R7 names, the two thresholds free. -/
def params : Params :=
  { pduMax := 253, respondTimeoutUs := respondTimeoutUs, convertDelayUs := convertDelayUs }

end Sys2Proof.Config
end

