-- ==== Sys2Proof/Syntax.lean ====
section
/-! DEFINITION. The thirteen operations (spec/00_scope.md R5, spec/30_encoding.md R101), one constructor per row of spec/opcode_table.json, with their operands at the widths of R100. -/

namespace Sys2Proof

/-- Who issues an operation (R101, column "agent"; R271). -/
inductive Agent where
  /-- the host: D0's poll context -/
  | host
  /-- the serial collaborator: event-source context -/
  | serial
  /-- the timer collaborator: event-source context -/
  | timer
  deriving DecidableEq, Repr

/-- The operations. Operands are raw fields of the operation word (R100): a value the operation refuses
(`baud` 0, `parity` 3, an offset past the buffer, `idx` above 5) is an operand like any other. -/
inductive Instr where
  /-- `INIT baud, parity` (format I) -/
  | init (baud : Baud) (parity : BitVec 2)
  /-- `START` (format N) -/
  | start
  /-- `STOP` (format N) -/
  | stop
  /-- `SEND addr, len` (format S) -/
  | send (addr : Byte) (len : Pos)
  /-- `RECEIVE` (format N) -/
  | receive
  /-- `CRC16 off, len` (format R) -/
  | crc16 (off : Pos) (len : Pos)
  /-- `VERIFY len` (format L) -/
  | verify (len : Pos)
  /-- `BUF_RD off` (format A) -/
  | bufRd (off : Pos)
  /-- `BUF_WR off, data` (format M) -/
  | bufWr (off : Pos) (data : Byte)
  /-- `RD_REG idx` (format X) -/
  | rdReg (idx : BitVec 4)
  /-- `RX_BYTE byte` (format E) -/
  | rxByte (byte : Byte)
  /-- `TX_EMPTY` (format N) -/
  | txEmpty
  /-- `TMR_EXP` (format N) -/
  | tmrExp
  deriving DecidableEq, Repr

/-- The context that may issue an operation (R5, R101). -/
def Instr.agent : Instr → Agent
  | .init _ _ => .host
  | .start => .host
  | .stop => .host
  | .send _ _ => .host
  | .receive => .host
  | .crc16 _ _ => .host
  | .verify _ => .host
  | .bufRd _ => .host
  | .bufWr _ _ => .host
  | .rdReg _ => .host
  | .rxByte _ => .serial
  | .txEmpty => .serial
  | .tmrExp => .timer

/-- The mnemonic of R101, letter for letter. -/
def Instr.mnemonic : Instr → String
  | .init _ _ => "INIT"
  | .start => "START"
  | .stop => "STOP"
  | .send _ _ => "SEND"
  | .receive => "RECEIVE"
  | .crc16 _ _ => "CRC16"
  | .verify _ => "VERIFY"
  | .bufRd _ => "BUF_RD"
  | .bufWr _ _ => "BUF_WR"
  | .rdReg _ => "RD_REG"
  | .rxByte _ => "RX_BYTE"
  | .txEmpty => "TX_EMPTY"
  | .tmrExp => "TMR_EXP"

end Sys2Proof
end

