-- ==== Sys2Proof/WellFormed.lean ====
section
/-! DEFINITION. When an operation is well formed on a port. Every operand is typed at its field's width and every value of the field is an encoding (spec/30_encoding.md R100), so the one check left is who may issue it (R102, R103, R271). -/

namespace Sys2Proof

/-- An operation is well formed for an agent when that agent's context owns it: "the host cannot inject a
received byte or a timer expiry" (R103), and the collaborators issue nothing but their own stimuli (R271). -/
def Instr.wellFormed (a : Agent) (i : Instr) : Bool := i.agent == a

end Sys2Proof
end

