-- ==== Sys2Proof/Decode.lean ====
section
/-! DEFINITION. Operation words (spec/30_encoding.md R90 to R103): the decoder, total on every 32-bit word and refusing by name; the encoder, written from the same formats; and the opcode map of R101 as a table. -/

namespace Sys2Proof

/-- Why a word is no operation of the block (R102, R103). -/
inductive DecodeError where
  /-- `OW[31:28]` is 0xD, 0xE or 0xF -/
  | reservedOpcode (op : BitVec 4)
  /-- a bit that the opcode's format requires to be 0 is 1 -/
  | mustBeZeroBitSet (op : BitVec 4)
  /-- an operation of another agent's context, on the port of `a` -/
  | notIssuableBy (a : Agent) (i : Instr)
  deriving DecidableEq, Repr

/-- `OW[lo+n-1:lo]` (R8). -/
def field (w : Word) (lo n : Nat) : BitVec n := w.extractLsb' lo n

/-- `OW[31:28]` (R90). -/
def opcode (w : Word) : BitVec 4 := field w 28 4

/-- Accept `i` when the must-be-zero bits are 0 (R92 to R99, R102). -/
def whenZero (zero : Bool) (w : Word) (i : Instr) : Except DecodeError Instr :=
  if zero then .ok i else .error (.mustBeZeroBitSet (opcode w))

/-- The decoder of a trace, where the stimuli's words are legal too (R91 item 2, R101, R103). -/
def decode (w : Word) : Except DecodeError Instr :=
  match (opcode w).toNat with
  | 0x0 => whenZero (field w 26 2 == 0#2) w (.init (field w 0 24) (field w 24 2))
  | 0x1 => whenZero (field w 0 28 == 0#28) w .start
  | 0x2 => whenZero (field w 0 28 == 0#28) w .stop
  | 0x3 => whenZero (field w 12 8 == 0#8) w (.send (field w 20 8) (field w 0 12))
  | 0x4 => whenZero (field w 0 28 == 0#28) w .receive
  | 0x5 => whenZero (field w 24 4 == 0#4) w (.crc16 (field w 12 12) (field w 0 12))
  | 0x6 => whenZero (field w 12 16 == 0#16) w (.verify (field w 0 12))
  | 0x7 => whenZero (field w 24 4 == 0#4 && field w 0 12 == 0#12) w (.bufRd (field w 12 12))
  | 0x8 => whenZero (field w 24 4 == 0#4 && field w 8 4 == 0#4) w (.bufWr (field w 12 12) (field w 0 8))
  | 0x9 => whenZero (field w 4 24 == 0#24) w (.rdReg (field w 0 4))
  | 0xA => whenZero (field w 8 20 == 0#20) w (.rxByte (field w 0 8))
  | 0xB => whenZero (field w 0 28 == 0#28) w .txEmpty
  | 0xC => whenZero (field w 0 28 == 0#28) w .tmrExp
  | _ => .error (.reservedOpcode (opcode w))

/-- The decoder on one agent's port: an operation of another context is refused too (R102, R103). -/
def decodeOn (a : Agent) (w : Word) : Except DecodeError Instr :=
  match decode w with
  | .ok i => if i.wellFormed a then .ok i else .error (.notIssuableBy a i)
  | .error e => .error e

/-- The encoder: the opcode, then the fields of R92 to R99 from the most significant bit down. -/
def encode : Instr → Word
  | .init baud parity => 0x0#4 ++ 0#2 ++ parity ++ baud
  | .start => 0x1#4 ++ 0#28
  | .stop => 0x2#4 ++ 0#28
  | .send addr len => 0x3#4 ++ addr ++ 0#8 ++ len
  | .receive => 0x4#4 ++ 0#28
  | .crc16 off len => 0x5#4 ++ 0#4 ++ off ++ len
  | .verify len => 0x6#4 ++ 0#16 ++ len
  | .bufRd off => 0x7#4 ++ 0#4 ++ off ++ 0#12
  | .bufWr off data => 0x8#4 ++ 0#4 ++ off ++ 0#4 ++ data
  | .rdReg idx => 0x9#4 ++ 0#24 ++ idx
  | .rxByte byte => 0xA#4 ++ 0#20 ++ byte
  | .txEmpty => 0xB#4 ++ 0#28
  | .tmrExp => 0xC#4 ++ 0#28

/-- One row of the opcode map of R101. -/
structure OpcodeRow where
  mnemonic : String
  pattern : Word
  mask : Word
  agent : Agent
  deriving DecidableEq, Repr

/-- "`OW & mask == match` selects the row" (R101). -/
def OpcodeRow.selects (r : OpcodeRow) (w : Word) : Bool := w &&& r.mask == r.pattern

/-- The complete map of R101, row by row. -/
def opcodeTable : List OpcodeRow :=
  [ ⟨"INIT", 0x00000000#32, 0xFC000000#32, .host⟩,
    ⟨"START", 0x10000000#32, 0xFFFFFFFF#32, .host⟩,
    ⟨"STOP", 0x20000000#32, 0xFFFFFFFF#32, .host⟩,
    ⟨"SEND", 0x30000000#32, 0xF00FF000#32, .host⟩,
    ⟨"RECEIVE", 0x40000000#32, 0xFFFFFFFF#32, .host⟩,
    ⟨"CRC16", 0x50000000#32, 0xFF000000#32, .host⟩,
    ⟨"VERIFY", 0x60000000#32, 0xFFFFF000#32, .host⟩,
    ⟨"BUF_RD", 0x70000000#32, 0xFF000FFF#32, .host⟩,
    ⟨"BUF_WR", 0x80000000#32, 0xFF000F00#32, .host⟩,
    ⟨"RD_REG", 0x90000000#32, 0xFFFFFFF0#32, .host⟩,
    ⟨"RX_BYTE", 0xA0000000#32, 0xFFFFFF00#32, .serial⟩,
    ⟨"TX_EMPTY", 0xB0000000#32, 0xFFFFFFFF#32, .serial⟩,
    ⟨"TMR_EXP", 0xC0000000#32, 0xFFFFFFFF#32, .timer⟩ ]

/-- The instruction the decoder reads from the `nbits` low bits of `w`, the bits above them 0. Operation words
are never stored in memory (R74), so no byte order enters. A word longer than 32 bits is none (R90). -/
def decodeTableWord (nbits w : Nat) : Option Instr :=
  let v := w % 2 ^ nbits
  if v < 2 ^ 32 then
    match decode (BitVec.ofNat 32 v) with
    | .ok i => some i
    | .error _ => none
  else none

end Sys2Proof
end

