-- ==== Sys2Proof/Machine/State.lean ====
section
/-! DEFINITION. The state of the RTU transport block: the seventeen items of spec/10_state.md R20, the ports' inputs and outputs that one step exchanges with the host and the collaborators, and the reset state of R51. -/

namespace Sys2Proof.Machine

/-- `rcv_state` (R25): "Governs interpretation of each incoming byte." -/
inductive RcvState where
  | init | idle | receiving | error
  deriving DecidableEq, Repr

/-- `snd_state` (R26): "Governs interpretation of each timer expiry and each 'byte sent' notification." -/
inductive SndState where
  | idle | transmitting | waitFollowUp
  deriving DecidableEq, Repr

/-- `tmr_mode` (R27): "Selects which timeout the hardware timer is currently measuring". -/
inductive TmrMode where
  | interFrameDelay | respondTimeout | convertDelay
  deriving DecidableEq, Repr

/-- `parity` (R23); code 3 is never stored. -/
inductive Parity where
  | none | odd | even
  deriving DecidableEq, Repr

/-- `fault` (R41): the sticky assertion latch. -/
inductive AssertLatch where
  /-- 0 = no fault -/
  | clear
  /-- 1, raised by `TMR_EXP` (R211) -/
  | timerWhileTransmitting
  /-- 2, raised by `TX_EMPTY` (R203) -/
  | txEmptyInWaitFollowUp
  deriving DecidableEq, Repr

/-- The statuses of a host operation (R105, R230). -/
inductive Status where
  | ok | portError | invalidArg | illegalState | invalid | busy | illegalOp | faulted
  deriving DecidableEq, Repr

/-- `rsp_status`, `rsp_data` (R105). -/
structure Response where
  status : Status
  data : Word
  deriving DecidableEq, Repr

/-- The event codes of R106, the one the block never produces (`FrameSent`, R241) among them. -/
inductive EventCode where
  | ready | frameSent | frameReceived | execute | errorProcess
  deriving DecidableEq, Repr

/-- The event tags of R106, the one the block never produces (`ExecuteFunctionError`, R241) among them. -/
inductive EventTag where
  | none | respondTimeout | receiveDataError | executeFunctionError
  deriving DecidableEq, Repr

/-- `ev_code` with `ev_tag` (R106). -/
structure Event where
  code : EventCode
  tag : EventTag
  deriving DecidableEq, Repr

/-- One `serial_configure` transfer: `cfg_baud`, `cfg_parity`, `cfg_stop`, `cfg_data` (R150, R245). -/
structure SerialConfig where
  baud : Baud
  parity : Parity
  stopBits : BitVec 2
  dataBits : BitVec 4
  deriving DecidableEq, Repr

/-- A transfer to the timer collaborator: the strobe `tmr_arm` with its mode and threshold, or `tmr_disarm` (R250). -/
inductive TimerCmd where
  | arm (mode : TmrMode) (thr : Word)
  | disarm
  deriving DecidableEq, Repr

/-- What one step emits (R11, R245, R250, R106); `none` where it emits nothing on that port. -/
structure Outputs where
  /-- `rsp_valid` with `rsp_status`, `rsp_data` -/
  rsp : Option Response := none
  /-- `tx_valid` with `tx_data`: the byte handed to `write_byte` -/
  tx : Option Byte := none
  /-- `cfg_valid` with its fields -/
  cfg : Option SerialConfig := none
  /-- `tmr_arm` or `tmr_disarm` -/
  tmr : Option TimerCmd := none
  /-- `ev_valid` with `ev_code`, `ev_tag` -/
  ev : Option Event := none
  deriving DecidableEq, Repr

/-- One thing presented at the block's ports, to be served as one atomic step (R66, R91, R280). -/
inductive PortEvent where
  /-- a clock edge at which `rst` is sampled high (R280) -/
  | reset
  /-- `cmd_valid` with `cmd_word`; `cfgOk` is the level of the input `cfg_ok`, the answer `port_ok` that an
  `INIT` will find (R50 item 3, R91 item 1, R245) -/
  | command (word : Word) (cfgOk : Bool)
  /-- the strobe `rx_valid` with `rx_data` (R245) -/
  | rxValid (data : Byte)
  /-- the strobe `tx_empty` (R245) -/
  | txEmpty
  /-- the strobe `tmr_expired` (R250); `evAccept` is the input `ev_accept`, which the block ignores (R242) -/
  | tmrExpired (evAccept : Bool)
  deriving DecidableEq, Repr

/-- The cells of the frame buffer that a step has written since reset, by offset. A cell not listed has no
written value. Canonical form: `Memory.wf`. -/
abbrev Memory := List Host.Cell

/-- The canonical form: offsets strictly rising. An unlisted cell has no written value, so no entry can equal
what an unlisted cell holds, and equal contents are equal lists (log entry 5). -/
abbrev Memory.wf (m : Memory) : Prop := m.Pairwise fun x y => x.1 < y.1

/-- The state of the block (R20) and the model's own five fields around it. -/
structure State where
  /-- R21: 1 after an `INIT` that returned `Ok` -/
  configured : Bool
  /-- R22 -/
  baud : Baud
  /-- R23 -/
  parity : Parity
  /-- R24: the inter-frame delay threshold in microseconds -/
  t35Us : Word
  /-- R25 -/
  rcvState : RcvState
  /-- R26 -/
  sndState : SndState
  /-- R27 -/
  tmrMode : TmrMode
  /-- R28: shadows whether the external timer is running -/
  tmrArmed : Bool
  /-- R29: the threshold of the last `arm` -/
  tmrThr : Word
  /-- R30: the frame buffer, as the cells written since reset -/
  buf : Memory
  /-- R31: bytes of the frame being received, or last received -/
  rcvPos : Pos
  /-- R32: offset of the next byte to emit -/
  sndPtr : Pos
  /-- R33: bytes still to be emitted -/
  sndCnt : Pos
  /-- R34: receive enable -/
  rxEn : Bool
  /-- R35: transmit enable -/
  txEn : Bool
  /-- R36: the broadcast mark -/
  isBcast : Bool
  /-- R41: the sticky fault latch -/
  fault : AssertLatch
  /-- the model's own: the open parameters of this instance (R7); no step writes them -/
  params : Config.Params
  /-- the model's own: how many resets there were, so that each leaves buffer content of its own (U1) -/
  resetEpoch : Nat
  /-- the model's own: the level of the input `cfg_ok` at the command being served (R50 item 3) -/
  cfgOk : Bool
  /-- the model's own: what the host and the collaborators will present, in the order it will be served (R67) -/
  pending : List PortEvent
  /-- the model's own: the outputs of the step that led to this state (R11) -/
  out : Outputs
  deriving DecidableEq, Repr

/-- Why the machine stops. -/
inductive Fault where
  /-- `RECEIVE` with `rcv_pos > BUF_SIZE`, or `TX_EMPTY` with `snd_ptr >= BUF_SIZE`: a read of a cell that does
  not exist (R10). No run reaches such a state (R52 items 2 and 3, R206). Safe: the machine stops. -/
  | cellOutsideBuffer (off : Nat)
  deriving DecidableEq, Repr

/-- Why an operation has no meaning here. -/
inductive Refusal where
  /-- raised by an arm of `exec` that has no meaning yet (none has this now). Safe: the machine stops. -/
  | notModelled (mnemonic : String)
  deriving DecidableEq, Repr

/-- How a step ends. -/
abbrev Result := Host.Outcome State Fault Refusal

/-- The state right after reset (R51, R281). The last output is the `tmr_disarm` that reset raises (R280).
`params`, `resetEpoch`, `cfgOk` and `pending` are the model's own (log entries 2, 4, 6, 7). -/
def State.reset : State :=
  { configured := false
    baud := 0
    parity := .none
    t35Us := 0
    rcvState := .init
    sndState := .idle
    tmrMode := .interFrameDelay
    tmrArmed := false
    tmrThr := 0
    buf := []
    rcvPos := 0
    sndPtr := 0
    sndCnt := 0
    rxEn := false
    txEn := false
    isBcast := false
    fault := .clear
    params := Config.params
    resetEpoch := 0
    cfgOk := false
    pending := []
    out := { tmr := some .disarm } }

end Sys2Proof.Machine
end

