-- ==== Sys2Proof/Machine/Crc.lean ====
section
/-! DEFINITION. The pure functions of the Frame Codec (spec/40_frame_codec.md R130 to R135): `crc16`, its table form, `verify`, `frame_of`, `parse_frame`. -/

namespace Sys2Proof.Machine

/-- `v[7:0]` of a CRC value (R62). -/
def crcLo (c : Half) : Byte := c.extractLsb' 0 8

/-- `v[15:8]` of a CRC value (R62). -/
def crcHi (c : Half) : Byte := c.extractLsb' 8 8

/-- One shift of R130's inner loop. -/
def crcShift (c : Half) : Half :=
  if c.getLsbD 0 then (c >>> 1) ^^^ Config.crcPoly else c >>> 1

/-- `n` shifts of R130's inner loop. -/
def crcShifts : Nat → Half → Half
  | 0, c => c
  | n + 1, c => crcShifts n (crcShift c)

/-- One byte of R130: `b` enters the low 8 bits, then eight shifts. -/
def crcByte (c : Half) (b : Byte) : Half := crcShifts 8 (c ^^^ b.setWidth 16)

/-- R130's outer loop from a given value (R132 item 3). -/
def crcFrom : Half → List Byte → Half
  | c, [] => c
  | c, b :: bs => crcFrom (crcByte c b) bs

/-- `crc16(bytes)` (R130). -/
def crc16 (bytes : List Byte) : Half := crcFrom Config.crcInit bytes

/-- `table[i]` of R131: the inner loop applied to `zext_16(i)`. -/
def crcTable (i : Byte) : Half := crcShifts 8 (i.setWidth 16)

/-- One byte of R131's table form. -/
def crcTableByte (c : Half) (b : Byte) : Half := (c >>> 8) ^^^ crcTable (crcLo c ^^^ b)

/-- R131's table form over a byte list. -/
def crcTableFrom : Half → List Byte → Half
  | c, [] => c
  | c, b :: bs => crcTableFrom (crcTableByte c b) bs

/-- `verify(frame)` (R133): the CRC of the whole frame is zero. -/
def verify (frame : List Byte) : Bool := crc16 frame == 0#16

/-- The CRC as it goes on the wire, low byte first (R62, R108). -/
def crcBytes (c : Half) : List Byte := [crcLo c, crcHi c]

/-- `frame_of(addr, pdu)` (R135, R108). -/
def frameOf (addr : Byte) (pdu : List Byte) : List Byte :=
  (addr :: pdu) ++ crcBytes (crc16 (addr :: pdu))

/-- `parse_frame(f)` (R135): `f[0]` and `f[1 .. len(f)-3]`, or nothing where D0 says `Invalid`. -/
def parseFrame (f : List Byte) : Option (Byte × List Byte) :=
  match f with
  | [] => none
  | addr :: rest =>
    if Config.minFrame ≤ f.length ∧ verify f then some (addr, rest.take (f.length - 3)) else none

end Sys2Proof.Machine
end

