-- ==== Sys2Proof/Machine/Ops.lean ====
section
/-! DEFINITION. The named operations over the state: the frame buffer (spec/20_memory.md), what a step emits (spec/00_scope.md R11, R12), answering a host operation, raising an assertion fault (spec/60_exceptions.md R236) and reset, the one way out of it (spec/70_reset_and_hazards.md R280). -/

namespace Sys2Proof.Machine

/-- The written value of the cell at an offset, if a step wrote it since reset. -/
def Memory.lookup : Memory → Nat → Option Byte
  | [], _ => none
  | (a, b) :: m, off => if off = a then some b else Memory.lookup m off

/-- Write one cell, keeping the offsets strictly rising. -/
def Memory.store : Memory → Nat → Byte → Memory
  | [], off, v => [(off, v)]
  | (a, b) :: m, off, v =>
    if off < a then (off, v) :: (a, b) :: m
    else if off = a then (off, v) :: m
    else (a, b) :: Memory.store m off v

/-- `BUF_SIZE` of this instance (R7, R60). -/
def State.bufSize (s : State) : Nat := s.params.bufSize

/-- `buf[off]`: the byte last written there, or the unknown byte the cell holds since reset (R72; U1). -/
def State.cell (s : State) (off : Nat) : Byte :=
  (s.buf.lookup off).getD (Config.bufAtReset s.resetEpoch off)

/-- `buf[off] <- v`. -/
def State.setCell (s : State) (off : Nat) (v : Byte) : State :=
  { s with buf := s.buf.store off v }

/-- `MemRead(off, n)` (R10). Its callers check `off + n <= BUF_SIZE` first. -/
def State.memRead (s : State) : Nat → Nat → List Byte
  | _, 0 => []
  | off, n + 1 => s.cell off :: State.memRead s (off + 1) n

/-- `MemWrite(off, n, v)` (R10). -/
def State.memWrite (s : State) : Nat → List Byte → State
  | _, [] => s
  | off, v :: vs => State.memWrite (s.setCell off v) (off + 1) vs

/-- Start a step that has emitted nothing yet (R11). -/
def State.quiet (s : State) : State := { s with out := {} }

/-- `return Status(data)` (R11, R105). -/
def State.answer (st : Status) (data : Word) (s : State) : State :=
  { s with out := { s.out with rsp := some ⟨st, data⟩ } }

/-- `emit tx_byte(b)` (R11, R246). -/
def State.emitTx (b : Byte) (s : State) : State := { s with out := { s.out with tx := some b } }

/-- `emit event(e)`, or no event (R11, R242). -/
def State.emitEvent (e : Option Event) (s : State) : State := { s with out := { s.out with ev := e } }

/-- `emit serial_configure(baud, parity, stop_bits = 1, data_bits = 8)` (R110, R150). -/
def State.emitConfig (baud : Baud) (parity : Parity) (s : State) : State :=
  { s with out := { s.out with cfg := some ⟨baud, parity, 1, 8⟩ } }

/-- `arm(m, thr)` (R12, R250). -/
def State.arm (m : TmrMode) (thr : Word) (s : State) : State :=
  { s with tmrMode := m, tmrThr := thr, tmrArmed := true, out := { s.out with tmr := some (.arm m thr) } }

/-- `disarm()` (R12, R250): `tmr_mode` and `tmr_thr` keep their values. -/
def State.disarm (s : State) : State :=
  { s with tmrArmed := false, out := { s.out with tmr := some .disarm } }

/-- `raise AssertFault(cause)` (R11, R236): the latch, nothing else, and nothing emitted. -/
def State.raiseAssert (cause : AssertLatch) (s : State) : State := { s with fault := cause, out := {} }

/-- A clock edge with `rst` high (R51, R280): every register at its reset value, the buffer's content unknown
anew, nothing emitted but `tmr_disarm`. It is the one way out of Faulted. -/
def State.applyReset (s : State) : State :=
  { State.reset with
    params := s.params, resetEpoch := s.resetEpoch + 1, cfgOk := s.cfgOk, pending := s.pending }

/-- A host operation that ends with a status and no effect (R230, column "state change": none). -/
def reply (st : Status) (data : Word) (s : State) : Result := .next (s.quiet.answer st data)

/-- The checks of a host operation in their order, "the first that applies is returned" (R237); then its effect. -/
def guarded : List (Bool × Status) → State → (State → Result) → Result
  | [], s, effect => effect s.quiet
  | (applies, st) :: checks, s, effect => if applies then reply st 0 s else guarded checks s effect

/-- A stimulus "does nothing at all" while Faulted (R236 item 3). -/
def unlessFaulted (s : State) (effect : State → Result) : Result :=
  if s.fault == .clear then effect s.quiet else .next s.quiet

end Sys2Proof.Machine
end

