-- ==== Sys2Proof/Machine/Operands.lean ====
section
/-! DEFINITION. The operand forms and their domains (spec/60_exceptions.md R230, row `InvalidArg`): every operand is an unsigned field used as it stands (spec/30_encoding.md R100), and a value outside its domain is refused by value. -/

namespace Sys2Proof.Machine

/-- The parity codes: 0 None, 1 Odd, 2 Even; 3 is unassigned (R23, R93). -/
def Parity.ofCode (p : BitVec 2) : Option Parity :=
  match p.toNat with
  | 0 => some .none
  | 1 => some .odd
  | 2 => some .even
  | _ => Option.none

/-- `baud == 0 or parity == 3` (R150). -/
def badInitOperands (baud : Baud) (parity : BitVec 2) : Bool := baud == 0#24 || parity == 3#2

/-- `len == 0 or len > PDU_MAX` (R175). -/
def badSendLen (s : State) (len : Pos) : Bool := len == 0#12 || decide (s.params.pduMax < len.toNat)

/-- `off >= BUF_SIZE` (R180, R183). -/
def badOffset (s : State) (off : Pos) : Bool := decide (s.bufSize ≤ off.toNat)

/-- `off + len > BUF_SIZE`, the sum taken without wrap (R136); `VERIFY` has `off = 0` (R139). -/
def badRange (s : State) (off len : Nat) : Bool := decide (s.bufSize < off + len)

/-- `t35_of(baud)` (R151): the inter-frame delay threshold in microseconds, the quotient truncated. -/
def t35Of (baud : Baud) : Word :=
  if baud.toNat > Config.baudFastLimit then BitVec.ofNat 32 Config.t35FastUs
  else BitVec.ofNat 32 (Config.t35Num / baud.toNat)

/-- The six status words and their indices (R42 to R47). -/
inductive StatusReg where
  | status | config | t35Us | rcvPos | snd | tmrThr
  deriving DecidableEq, Repr

/-- "Indices 6 to 15 name no register" (R47). -/
def StatusReg.ofIdx (idx : BitVec 4) : Option StatusReg :=
  match idx.toNat with
  | 0 => some .status
  | 1 => some .config
  | 2 => some .t35Us
  | 3 => some .rcvPos
  | 4 => some .snd
  | 5 => some .tmrThr
  | _ => none

end Sys2Proof.Machine
end

