-- ==== Sys2Proof/Machine/Flags.lean ====
section
/-! DEFINITION. The status computations: the predicates that guard operations (spec/20_memory.md R70, spec/10_state.md R40, R41), the numeric encodings of the enumerations (R23, R25 to R27, R41, R105, R106) and the six status words of R42 to R47. -/

namespace Sys2Proof.Machine

/-- `fault != 0` (R41). -/
def State.faulted (s : State) : Bool := !(s.fault == .clear)

/-- `owned()` (R70). -/
def State.owned (s : State) : Bool := s.rcvState == .receiving || s.sndState == .transmitting

/-- `rcv_state != Idle or snd_state != Idle`: the `Busy` condition of `SEND` (R175). -/
def State.sendBusy (s : State) : Bool := !(s.rcvState == .idle && s.sndState == .idle)

/-- Whether the frame in the buffer is addressed to the broadcast sentinel: `buf[0] == BCAST_ADDR` (R202). -/
def State.frameIsBcast (s : State) : Bool := s.cell 0 == Config.bcastAddr

/-- R25 -/
def RcvState.code : RcvState → BitVec 2
  | .init => 0
  | .idle => 1
  | .receiving => 2
  | .error => 3

/-- R26 -/
def SndState.code : SndState → BitVec 2
  | .idle => 0
  | .transmitting => 1
  | .waitFollowUp => 2

/-- R27 -/
def TmrMode.code : TmrMode → BitVec 2
  | .interFrameDelay => 0
  | .respondTimeout => 1
  | .convertDelay => 2

/-- R23 -/
def Parity.code : Parity → BitVec 2
  | .none => 0
  | .odd => 1
  | .even => 2

/-- R41 -/
def AssertLatch.code : AssertLatch → BitVec 4
  | .clear => 0
  | .timerWhileTransmitting => 1
  | .txEmptyInWaitFollowUp => 2

/-- `rsp_status` (R105) -/
def Status.code : Status → BitVec 4
  | .ok => 0
  | .portError => 1
  | .invalidArg => 2
  | .illegalState => 3
  | .invalid => 4
  | .busy => 5
  | .illegalOp => 6
  | .faulted => 7

/-- `ev_code` (R106) -/
def EventCode.code : EventCode → BitVec 3
  | .ready => 0
  | .frameSent => 1
  | .frameReceived => 2
  | .execute => 3
  | .errorProcess => 4

/-- `ev_tag` (R106) -/
def EventTag.code : EventTag → BitVec 2
  | .none => 0
  | .respondTimeout => 1
  | .receiveDataError => 2
  | .executeFunctionError => 3

/-- `STATUS` (R42): bits 15:12 `fault`, 10 `configured`, 9 `is_bcast`, 8 `tx_en`, 7 `rx_en`, 6 `tmr_armed`,
5:4 `tmr_mode`, 3:2 `snd_state`, 1:0 `rcv_state`; the rest reads 0. -/
def State.statusWord (s : State) : Word :=
  0#16 ++ s.fault.code ++ 0#1 ++ BitVec.ofBool s.configured ++ BitVec.ofBool s.isBcast ++ BitVec.ofBool s.txEn
    ++ BitVec.ofBool s.rxEn ++ BitVec.ofBool s.tmrArmed ++ s.tmrMode.code ++ s.sndState.code ++ s.rcvState.code

/-- `CONFIG` (R43). -/
def State.configWord (s : State) : Word := 0#6 ++ s.parity.code ++ s.baud

/-- `RCV_POS` (R45). -/
def State.rcvPosWord (s : State) : Word := 0#20 ++ s.rcvPos

/-- `SND` (R46). -/
def State.sndWord (s : State) : Word := 0#4 ++ s.sndCnt ++ 0#4 ++ s.sndPtr

/-- `word(idx)` of R162 (R42 to R47). -/
def State.readReg (s : State) : StatusReg → Word
  | .status => s.statusWord
  | .config => s.configWord
  | .t35Us => s.t35Us
  | .rcvPos => s.rcvPosWord
  | .snd => s.sndWord
  | .tmrThr => s.tmrThr

/-- The data of `RECEIVE`: `{zext_8(0), buf[0], zext_4(0), (rcv_pos - 3)[11:0]}` (R170). -/
def State.receiveWord (s : State) : Word := 0#8 ++ s.cell 0 ++ 0#4 ++ (s.rcvPos - 3)

end Sys2Proof.Machine
end

