-- ==== Sys2Proof/Machine/Codec.lean ====
section
/-! DEFINITION. The Frame Codec's operations (spec/40_frame_codec.md): `CRC16`, `VERIFY`. -/

namespace Sys2Proof.Machine

/-- `CRC16 off, len` (R136). -/
def execCrc16 (off len : Pos) (s : State) : Result :=
  guarded [(s.faulted, .faulted), (badRange s off.toNat len.toNat, .invalidArg), (s.owned, .busy)] s fun t =>
    .next (t.answer .ok ((crc16 (t.memRead off.toNat len.toNat)).setWidth 32))

/-- `VERIFY len` (R139). -/
def execVerify (len : Pos) (s : State) : Result :=
  guarded [(s.faulted, .faulted), (badRange s 0 len.toNat, .invalidArg), (s.owned, .busy)] s fun t =>
    .next (t.answer .ok (if verify (t.memRead 0 len.toNat) then 1 else 0))

end Sys2Proof.Machine
end

