-- ==== Sys2Proof/Machine/Control.lean ====
section
/-! DEFINITION. Configuration and control (spec/41_config_control.md): `INIT`, `START`, `STOP`, `RD_REG`. -/

namespace Sys2Proof.Machine

/-- What an accepted `INIT` stores (R150): the configuration registers and nothing else (R283). -/
def State.configure (baud : Baud) (parity : Parity) (s : State) : State :=
  { s with baud := baud, parity := parity, t35Us := t35Of baud, configured := true }

/-- `INIT baud, parity` once its operands are in their domain (R150): the collaborator is asked, and its answer
`port_ok` decides. -/
def initWith (baud : Baud) (parity : Parity) (s : State) : Result :=
  let asked := s.emitConfig baud parity
  if s.cfgOk then .next ((asked.configure baud parity).answer .ok 0)
  else .next (asked.answer .portError 0)

/-- `INIT baud, parity` (R150, R153). -/
def execInit (baud : Baud) (parity : BitVec 2) (s : State) : Result :=
  guarded [(s.faulted, .faulted), (badInitOperands baud parity, .invalidArg)] s fun t =>
    match Parity.ofCode parity with
    | some p => initWith baud p t
    | none => reply .invalidArg 0 t

/-- `START` (R155, R156). -/
def execStart (s : State) : Result :=
  guarded [(s.faulted, .faulted), (!s.configured, .illegalState)] s fun t =>
    .next ((({ t with rcvState := .init, rxEn := true, txEn := false }).arm .interFrameDelay t.t35Us).answer .ok 0)

/-- `STOP` (R158, R159). -/
def execStop (s : State) : Result :=
  guarded [(s.faulted, .faulted), (!s.configured, .illegalState)] s fun t =>
    .next ((({ t with rxEn := false, txEn := false }).disarm).answer .ok 0)

/-- `RD_REG idx` (R162): the one host operation that is not refused while Faulted. -/
def execRdReg (idx : BitVec 4) (s : State) : Result :=
  match StatusReg.ofIdx idx with
  | some r => reply .ok (s.readReg r) s
  | none => reply .invalidArg 0 s

end Sys2Proof.Machine
end

