-- ==== Sys2Proof/Machine/Receive.lean ====
section
/-! DEFINITION. The receive state machine (spec/43_receive_fsm.md): `RX_BYTE`. -/

namespace Sys2Proof.Machine

/-- What a received byte does to the receiver, by `rcv_state` (R190 to R193). It tests nothing else (R194). -/
def State.takeByte (byte : Byte) (s : State) : State :=
  match s.rcvState with
  | .init => s
  | .error => s
  | .idle => { s.setCell 0 byte with rcvPos := 1, rcvState := .receiving }
  | .receiving =>
    if s.rcvPos.toNat < s.bufSize then { s.setCell s.rcvPos.toNat byte with rcvPos := s.rcvPos + 1 }
    else { s with rcvState := .error }

/-- `RX_BYTE byte` (R190 to R192): every byte arms the inter-frame timer, which replaces whatever was armed. -/
def execRxByte (byte : Byte) (s : State) : Result :=
  unlessFaulted s fun t => .next ((t.takeByte byte).arm .interFrameDelay t.t35Us)

end Sys2Proof.Machine
end

