-- ==== Sys2Proof/Machine/Timer.lean ====
section
/-! DEFINITION. The timer-expiry handler (spec/45_timer_expiry.md): `TMR_EXP`. -/

namespace Sys2Proof.Machine

/-- `ev_r`: the receive-state condition (R210). -/
def State.receiveEvent (s : State) : Option Event :=
  match s.rcvState with
  | .init => some ⟨.ready, .none⟩
  | .receiving => some ⟨.frameReceived, .none⟩
  | .error => some ⟨.errorProcess, .receiveDataError⟩
  | .idle => none

/-- `ev_s`: the send-state condition (R212). -/
def State.sendEvent (s : State) : Option Event :=
  if s.sndState == .waitFollowUp && !s.isBcast then some ⟨.errorProcess, .respondTimeout⟩ else none

/-- `ev_x`: the expired-mode condition (R213). -/
def State.modeEvent (s : State) : Option Event :=
  if s.tmrMode == .convertDelay then some ⟨.execute, .none⟩ else none

/-- The one event handed out: the first of the three conditions that holds, or none (R214). -/
def State.expiryEvent (s : State) : Option Event :=
  match s.receiveEvent, s.sendEvent with
  | some e, _ => some e
  | none, some e => some e
  | none, none => s.modeEvent

/-- `TMR_EXP` (R210 to R215): the three conditions are evaluated before the writes. -/
def execTmrExp (s : State) : Result :=
  unlessFaulted s fun t =>
    if t.sndState == .transmitting then .next (t.raiseAssert .timerWhileTransmitting)
    else .next (({ t with rcvState := .idle, sndState := .idle }.disarm).emitEvent t.expiryEvent)

end Sys2Proof.Machine
end

