-- ==== Sys2Proof/Machine/Transfer.lean ====
section
/-! DEFINITION. Frame transfer (spec/42_frame_transfer.md): `SEND`, `RECEIVE`, `BUF_RD`, `BUF_WR`. -/

namespace Sys2Proof.Machine

/-- `SEND` builds `frame_of` in place (R135, R175): the address, then the CRC over address and PDU, which sees the
new `buf[0]`, low byte first. -/
def State.putFrame (addr : Byte) (len : Pos) (s : State) : State :=
  let s1 := s.setCell 0 addr
  s1.memWrite (len.toNat + 1) (crcBytes (crc16 (s1.memRead 0 (len.toNat + 1))))

/-- The registers an accepted `SEND` writes (R175). -/
def State.startSending (len : Pos) (s : State) : State :=
  { s with
    sndPtr := 0, sndCnt := BitVec.ofNat 12 (len.toNat + 3), sndState := .transmitting, rxEn := false, txEn := true }

/-- `SEND addr, len` (R175, R176). -/
def execSend (addr : Byte) (len : Pos) (s : State) : Result :=
  guarded [(s.faulted, .faulted), (!s.configured, .illegalState), (badSendLen s len, .invalidArg),
    (s.sendBusy, .busy)] s fun t =>
    .next (((t.putFrame addr len).startSending len).answer .ok 0)

/-- `RECEIVE` (R170, R171). The range read, `buf[0 .. rcv_pos-1]`, exists in every state a run reaches (R52 item 2);
elsewhere the read is a fault (R10). -/
def execReceive (s : State) : Result :=
  guarded [(s.faulted, .faulted), (s.owned, .busy), (decide (s.rcvPos.toNat < Config.minFrame), .invalid)] s fun t =>
    if t.bufSize < t.rcvPos.toNat then .fault (.cellOutsideBuffer t.bufSize)
    else if verify (t.memRead 0 t.rcvPos.toNat) then .next (t.answer .ok t.receiveWord)
    else .next (t.answer .invalid 0)

/-- `BUF_RD off` (R180). -/
def execBufRd (off : Pos) (s : State) : Result :=
  guarded [(s.faulted, .faulted), (badOffset s off, .invalidArg), (s.owned, .busy)] s fun t =>
    .next (t.answer .ok ((t.cell off.toNat).setWidth 32))

/-- `BUF_WR off, data` (R183). -/
def execBufWr (off : Pos) (data : Byte) (s : State) : Result :=
  guarded [(s.faulted, .faulted), (badOffset s off, .invalidArg), (s.owned, .busy)] s fun t =>
    .next ((t.setCell off.toNat data).answer .ok 0)

end Sys2Proof.Machine
end

