-- ==== Sys2Proof/Machine/Transmit.lean ====
section
/-! DEFINITION. The transmit state machine (spec/44_transmit_fsm.md): `TX_EMPTY`. -/

namespace Sys2Proof.Machine

/-- `TX_EMPTY` with bytes remaining (R201). The cell at `snd_ptr` exists in every state a run reaches (R52 item 3,
R206); elsewhere the read is a fault (R10). -/
def sendNextByte (s : State) : Result :=
  if s.sndPtr.toNat < s.bufSize then
    .next ({ s with sndPtr := s.sndPtr + 1, sndCnt := s.sndCnt - 1 }.emitTx (s.cell s.sndPtr.toNat))
  else .fault (.cellOutsideBuffer s.sndPtr.toNat)

/-- Start the follow-up timing: `ConvertDelay` after a broadcast, else `RespondTimeout` (R202). -/
def State.armFollowUp (bcast : Bool) (s : State) : State :=
  if bcast then s.arm .convertDelay s.params.convertDelayUs
  else s.arm .respondTimeout s.params.respondTimeoutUs

/-- `TX_EMPTY` with no byte remaining: the transmission completes (R202). -/
def State.completeSending (s : State) : State :=
  { s with isBcast := s.frameIsBcast, txEn := false, rxEn := true, sndState := .waitFollowUp }.armFollowUp s.frameIsBcast

/-- `TX_EMPTY` (R200 to R204). -/
def execTxEmpty (s : State) : Result :=
  unlessFaulted s fun t =>
    match t.sndState with
    | .idle => .next { t with rxEn := true, txEn := false }
    | .transmitting => if t.sndCnt == 0#12 then .next t.completeSending else sendNextByte t
    | .waitFollowUp => .next (t.raiseAssert .txEmptyInWaitFollowUp)

end Sys2Proof.Machine
end

