-- ==== Sys2Proof/Machine/Dispatch.lean ====
section
/-! DEFINITION. One arm per operation (spec/30_encoding.md R101). -/

namespace Sys2Proof.Machine

def exec (i : Instr) (s : State) : Host.Outcome State Fault Refusal :=
  match i with
  | .init baud parity => Sys2Proof.Machine.execInit baud parity s
  | .start => Sys2Proof.Machine.execStart s
  | .stop => Sys2Proof.Machine.execStop s
  | .send addr len => Sys2Proof.Machine.execSend addr len s
  | .receive => Sys2Proof.Machine.execReceive s
  | .crc16 off len => Sys2Proof.Machine.execCrc16 off len s
  | .verify len => Sys2Proof.Machine.execVerify len s
  | .bufRd off => Sys2Proof.Machine.execBufRd off s
  | .bufWr off data => Sys2Proof.Machine.execBufWr off data s
  | .rdReg idx => Sys2Proof.Machine.execRdReg idx s
  | .rxByte byte => Sys2Proof.Machine.execRxByte byte s
  | .txEmpty => Sys2Proof.Machine.execTxEmpty s
  | .tmrExp => Sys2Proof.Machine.execTmrExp s

end Sys2Proof.Machine
end

