-- ==== Sys2Proof/Machine/Serve.lean ====
section
/-! DEFINITION. Serving what stands at the ports (spec/30_encoding.md R91, R102, R103): one operation, one atomic step (spec/20_memory.md R66). -/

namespace Sys2Proof.Machine

/-- A word on the host command port: one of the ten host operations, or an illegal word, which is answered
`IllegalOp` before every other check, with no effect (R102, R237). -/
def serveCommand (w : Word) (cfgOk : Bool) (s : State) : Result :=
  match decodeOn .host w with
  | .ok i => exec i { s with cfgOk := cfgOk }
  | .error _ => reply .illegalOp 0 s

/-- One thing presented at the ports, served as one step. `ev_accept` is ignored (R242). -/
def serve (e : PortEvent) (s : State) : Result :=
  match e with
  | .reset => .next s.applyReset
  | .command w cfgOk => serveCommand w cfgOk s
  | .rxValid data => exec (.rxByte data) s
  | .txEmpty => exec .txEmpty s
  | .tmrExpired _ => exec .tmrExp s

/-- Take the next thing from the ports and serve it. With nothing presented the block waits for operations
(R281): the state stays and nothing is emitted (log entry 3). -/
def serveNext (s : State) : Result :=
  match s.pending with
  | [] => .next s.quiet
  | e :: rest => serve e { s with pending := rest }

/-- How a word of a trace (R91) is presented at the ports: a stimulus as its strobe, any other word on the host
command port, with `port_ok` as R112 reads a trace that does not say otherwise. -/
def PortEvent.ofTraceWord (w : Word) : PortEvent :=
  match decode w with
  | .ok (.rxByte b) => .rxValid b
  | .ok .txEmpty => .txEmpty
  | .ok .tmrExp => .tmrExpired true
  | _ => .command w true

end Sys2Proof.Machine
end

