-- ==== Sys2Proof/Machine/Step.lean ====
section
/-! DEFINITION. The step function, and how a word is placed where the next step takes it. -/

namespace Sys2Proof.Machine

/-- One atomic step of the block (R66). -/
def step (s : State) : Host.Outcome State Fault Refusal := serveNext s

/-- `s` with the operation word `w` (its bits above `nbits` 0) presented at the ports ahead of everything else
(R91; log entry 2). Operation words are never read from the buffer (R74). -/
def State.withFetchWord (s : State) (nbits w : Nat) : State :=
  { s with pending := PortEvent.ofTraceWord (BitVec.ofNat 32 (w % 2 ^ nbits)) :: s.pending }

end Sys2Proof.Machine
end

