-- ==== Sys2Proof/Machine/Assembly.lean ====
section
/-! DEFINITION. How traces and programs are written (spec/30_encoding.md R112, R113): one operation a line, and the six pseudo-operations with their expansions. -/

namespace Sys2Proof.Machine

/-- The operand `parity` in assembly: N, O or E (R112), and a number for the code that has no letter. -/
def parityText (p : BitVec 2) : String :=
  match Parity.ofCode p with
  | some .none => "N"
  | some .odd => "O"
  | some .even => "E"
  | none => toString p.toNat

/-- The operand of `RD_REG` in assembly: a register name, or a number (R112). -/
def regText (idx : BitVec 4) : String :=
  match StatusReg.ofIdx idx with
  | some .status => "STATUS"
  | some .config => "CONFIG"
  | some .t35Us => "T35_US"
  | some .rcvPos => "RCV_POS"
  | some .snd => "SND"
  | some .tmrThr => "TMR_THR"
  | none => toString idx.toNat

/-- The operands in R112's order, numbers in decimal. -/
def operandTexts : Instr → List String
  | .init baud parity => [toString baud.toNat, parityText parity]
  | .start => []
  | .stop => []
  | .send addr len => [toString addr.toNat, toString len.toNat]
  | .receive => []
  | .crc16 off len => [toString off.toNat, toString len.toNat]
  | .verify len => [toString len.toNat]
  | .bufRd off => [toString off.toNat]
  | .bufWr off data => [toString off.toNat, toString data.toNat]
  | .rdReg idx => [regText idx]
  | .rxByte byte => [toString byte.toNat]
  | .txEmpty => []
  | .tmrExp => []

/-- `MNEMONIC operand, operand` (R112). -/
def asmLine (i : Instr) : String :=
  match operandTexts i with
  | [] => i.mnemonic
  | ops => i.mnemonic ++ " " ++ String.intercalate ", " ops

/-- The pseudo-operations of R113. -/
inductive Pseudo where
  | loadPdu (bytes : List Byte)
  | sendp (addr : Byte) (bytes : List Byte)
  | txDrain (k : Nat)
  | rxFrame (bytes : List Byte)
  | rxFrameCrc (bytes : List Byte)
  | readPdu (n : Nat)
  deriving DecidableEq, Repr

/-- `BUF_WR off, b0`; `BUF_WR off+1, b1`; … An offset past 4095 wraps to 12 bits, the model's choice (log entry 24). -/
def storesFrom : Nat → List Byte → List Instr
  | _, [] => []
  | off, b :: bs => .bufWr (BitVec.ofNat 12 off) b :: storesFrom (off + 1) bs

/-- `BUF_RD off`; `BUF_RD off+1`; … An offset past 4095 wraps to 12 bits, the model's choice (log entry 24). -/
def loadsFrom : Nat → Nat → List Instr
  | _, 0 => []
  | off, n + 1 => .bufRd (BitVec.ofNat 12 off) :: loadsFrom (off + 1) n

/-- Each pseudo-operation "expands to the listed real operations, in order" (R113). DESIGN CHOICE (log entry 24): the
spec gives no expansion where a list or a count passes 4095, since the 12-bit `off` and `len` cannot name it; the model
takes the offsets of `LOAD_PDU`, `SENDP` and `READ_PDU` and the length of `SENDP` modulo 4096 there. -/
def Pseudo.expand : Pseudo → List Instr
  | .loadPdu bytes => storesFrom 1 bytes
  | .sendp addr bytes => storesFrom 1 bytes ++ [.send addr (BitVec.ofNat 12 bytes.length)]
  | .txDrain k => List.replicate k .txEmpty
  | .rxFrame bytes => bytes.map .rxByte
  | .rxFrameCrc bytes => (bytes ++ crcBytes (Sys2Proof.Machine.crc16 bytes)).map .rxByte
  | .readPdu n => loadsFrom 1 n

end Sys2Proof.Machine
end

