-- ==== Sys2Proof/Safety.lean ====
section
/-! DEFINITION. What claims are stated in terms of: the invariants of spec/10_state.md R52, the environment contract of spec/70_reset_and_hazards.md R290, and a run of events with the outputs it produces. -/

namespace Sys2Proof.Machine

/-- No assertion was raised (R236: "every claim takes `fault == 0` as a premise"). -/
abbrev State.Safe (s : State) : Prop := s.fault = .clear

/-- The invariants of R52 that speak of one state, by item, with what they need of the model's own fields. -/
structure State.Inv (s : State) : Prop where
  /-- R7: `PDU_MAX` is a legal choice -/
  paramsLegal : s.params.Legal
  /-- the buffer's list is in canonical form -/
  bufCanonical : s.buf.wf
  /-- R30, R60: no cell outside `0 .. BUF_SIZE-1` -/
  bufInside : ∀ c ∈ s.buf, c.1 < s.bufSize
  /-- item 1: half duplex -/
  halfDuplex : ¬(s.rxEn = true ∧ s.txEn = true)
  /-- item 2 -/
  rcvPosInside : s.rcvPos.toNat ≤ s.bufSize
  /-- item 3, first clause -/
  sndInside : s.sndPtr.toNat + s.sndCnt.toNat ≤ s.bufSize
  /-- item 5 -/
  txWhileTransmitting : s.txEn = true → s.sndState = .transmitting
  /-- item 6, first clause -/
  respondTiming : s.tmrArmed = true → s.tmrMode = .respondTimeout → s.sndState = .waitFollowUp ∧ s.isBcast = false
  /-- item 6, second clause -/
  convertTiming : s.tmrArmed = true → s.tmrMode = .convertDelay → s.sndState = .waitFollowUp ∧ s.isBcast = true
  /-- item 7 -/
  unconfigured : s.configured = false →
    s.sndState = .idle ∧ s.txEn = false ∧ s.sndPtr = 0#12 ∧ s.sndCnt = 0#12
  /-- item 8 -/
  armedIsWaiting : s.tmrArmed = true → s.rcvState ≠ .idle ∨ s.sndState ≠ .idle
  /-- R22, R24: `t35_us` is the threshold of the stored baud rate -/
  t35OfBaud : s.configured = true → s.baud ≠ 0#24 ∧ s.t35Us = t35Of s.baud

/-- Parts E1, E2, E3 and E5 of the environment contract (R290) for the next thing presented at the ports:
each stimulus only while it is asked for, and no `START` or `STOP` between a `SEND` and the event that ends its
transaction. -/
def PortEvent.keepsContract (e : PortEvent) (s : State) : Prop :=
  match e with
  | .reset => True
  | .command w _ => decodeOn .host w = .ok .start ∨ decodeOn .host w = .ok .stop → s.sndState = .idle
  | .rxValid _ => s.rxEn = true
  | .txEmpty => s.txEn = true
  | .tmrExpired _ => s.tmrArmed = true

/-- What holds from reset while the environment keeps its contract (R290). -/
structure State.ContractInv (s : State) : Prop where
  inv : s.Inv
  safe : s.Safe
  /-- while a frame goes out, the receive path is off and no timer runs (R176 (g), R249) -/
  transmitting : s.sndState = .transmitting →
    s.rcvState = .idle ∧ s.rxEn = false ∧ s.txEn = true ∧ s.tmrArmed = false
  /-- synchronising to the bus never overlaps a transaction -/
  synchronising : s.rcvState = .init → s.sndState = .idle
  /-- the running timer measures t3.5 exactly when the receiver is not Idle -/
  frameTiming : s.tmrArmed = true → (s.tmrMode = .interFrameDelay ↔ s.rcvState ≠ .idle)

/-- The operation answers this status and data and does nothing else (R230, column "state change": none). -/
def AnswersOnly (i : Instr) (s : State) (st : Status) (data : Word) : Prop :=
  exec i s = .next { s with out := { rsp := some ⟨st, data⟩ } }

/-- The host presents these operations as words, each with the same answer at `cfg_ok`. -/
def commands (cfgOk : Bool) (is : List Instr) : List PortEvent := is.map fun i => .command (encode i) cfgOk

/-- Serve a list of port events one after another, with the outputs of each step; nothing if one stops. -/
def runEvents : List PortEvent → State → Option (List Outputs × State)
  | [], s => some ([], s)
  | e :: es, s =>
    match serve e s with
    | .next t => (runEvents es t).map fun r => (t.out :: r.1, r.2)
    | .fault _ => none
    | .refused _ => none

end Sys2Proof.Machine
end

