-- ==== Sys2Proof/Certificates/Slice0/Obligations.lean ====
section
/-! DEFINITION. The statements for the provers. -/

open Sys2Proof Sys2Proof.Machine

/-- R51: a clock edge with `rst` high puts every register at its reset value, emits `tmr_disarm` and nothing else,
and leaves every cell at an unknown byte; `State.reset` has the same registers. -/
def Obligations.ResetPutsEveryRegisterAtItsResetValue : Prop :=
  (∀ (s : State) (rest : List PortEvent), s.pending = .reset :: rest →
    ∃ t, step s = .next t ∧
      t = { configured := false, baud := 0, parity := .none, t35Us := 0, rcvState := .init, sndState := .idle,
            tmrMode := .interFrameDelay, tmrArmed := false, tmrThr := 0, buf := [], rcvPos := 0, sndPtr := 0,
            sndCnt := 0, rxEn := false, txEn := false, isBcast := false, fault := .clear,
            params := s.params, resetEpoch := s.resetEpoch + 1, cfgOk := s.cfgOk, pending := rest,
            out := { tmr := some .disarm } } ∧
      ∀ a, t.cell a = Config.bufAtReset (s.resetEpoch + 1) a) ∧
  State.reset =
    { configured := false, baud := 0, parity := .none, t35Us := 0, rcvState := .init, sndState := .idle,
      tmrMode := .interFrameDelay, tmrArmed := false, tmrThr := 0, buf := [], rcvPos := 0, sndPtr := 0,
      sndCnt := 0, rxEn := false, txEn := false, isBcast := false, fault := .clear,
      params := Config.params, resetEpoch := 0, cfgOk := false, pending := [], out := { tmr := some .disarm } }

/-- R90 to R100: no bit of an encoding is dropped. -/
def Obligations.DecodeOfEncodeIsTheInstruction : Prop :=
  ∀ i : Instr, decode (encode i) = .ok i ∧ decodeOn i.agent (encode i) = .ok i

/-- R92 to R102: each word that decodes has one meaning, so a must-be-zero bit is really tested. -/
def Obligations.EncodeOfDecodeIsTheWord : Prop :=
  ∀ (w : Word) (i : Instr), decode w = .ok i → encode i = w

/-- R101: the decoder is the opcode map, and no two of its rows select one word. -/
def Obligations.DecodeFollowsTheOpcodeMap : Prop :=
  (∀ (w : Word) (i : Instr), decode w = .ok i →
    ∃ r ∈ opcodeTable, r.selects w = true ∧ r.mnemonic = i.mnemonic ∧ r.agent = i.agent) ∧
  (∀ (w : Word), ∀ r ∈ opcodeTable, r.selects w = true →
    ∃ i, decode w = .ok i ∧ i.mnemonic = r.mnemonic ∧ i.agent = r.agent) ∧
  (∀ (w : Word), ∀ r ∈ opcodeTable, ∀ q ∈ opcodeTable, r.selects w = true → q.selects w = true → r = q)

/-- Words written out in spec/95_test_vectors.md decode to the operations they are listed with. -/
def Obligations.ListedWordsDecodeAsListed : Prop :=
  decode 0x02004B00#32 = .ok (.init 19200 2) ∧ decode 0x31100005#32 = .ok (.send 0x11 5) ∧
  decode 0x500FF002#32 = .ok (.crc16 255 2) ∧ decode 0x60000101#32 = .ok (.verify 257) ∧
  decode 0x700FF000#32 = .ok (.bufRd 255) ∧ decode 0x800010AB#32 = .ok (.bufWr 1 0xAB) ∧
  decode 0x90000005#32 = .ok (.rdReg 5) ∧ decode 0xA000007B#32 = .ok (.rxByte 0x7B) ∧
  decode 0x10000000#32 = .ok .start ∧ decode 0x20000000#32 = .ok .stop ∧ decode 0x40000000#32 = .ok .receive ∧
  decode 0xB0000000#32 = .ok .txEmpty ∧ decode 0xC0000000#32 = .ok .tmrExp ∧
  decode 0xD0000000#32 = .error (.reservedOpcode 0xD) ∧ decode 0x10000001#32 = .error (.mustBeZeroBitSet 1) ∧
  decode 0x04002580#32 = .error (.mustBeZeroBitSet 0) ∧
  decodeOn .host 0xA0000005#32 = .error (.notIssuableBy .host (.rxByte 5))

/-- R91 item 1: a step serves the word on the host port as the operation it decodes to. -/
def Obligations.StepRunsTheHostCommand : Prop :=
  ∀ (s : State) (w : Word) (c : Bool) (rest : List PortEvent) (i : Instr),
    s.pending = .command w c :: rest → decodeOn .host w = .ok i →
    step s = exec i { s with pending := rest, cfgOk := c }

/-- R91 item 2, R242: a step serves a strobe as its stimulus, and `ev_accept` plays no part. -/
def Obligations.StepRunsTheStimulus : Prop :=
  (∀ (s : State) (b : Byte) (rest : List PortEvent), s.pending = .rxValid b :: rest →
    step s = exec (.rxByte b) { s with pending := rest }) ∧
  (∀ (s : State) (rest : List PortEvent), s.pending = .txEmpty :: rest →
    step s = exec .txEmpty { s with pending := rest }) ∧
  (∀ (s : State) (a : Bool) (rest : List PortEvent), s.pending = .tmrExpired a :: rest →
    step s = exec .tmrExp { s with pending := rest })

/-- The word of any operation, placed at the ports, is what the next step runs (log entry 2: `port_ok` as R112
reads a trace that does not say otherwise). -/
def Obligations.StepRunsThePlacedWord : Prop :=
  ∀ (s : State) (i : Instr),
    step (s.withFetchWord 32 (encode i).toNat) =
      exec i { s with cfgOk := if i.agent = .host then true else s.cfgOk }

/-- R102: a word with opcode 0xA to 0xF, or with a must-be-zero bit of its format set, is answered `IllegalOp`, in
every state (a Faulted one too), with no effect. -/
def Obligations.IllegalWordIsAnsweredIllegalOp : Prop :=
  ∀ (s : State) (w : Word) (c : Bool) (rest : List PortEvent), s.pending = .command w c :: rest →
    (10 ≤ (opcode w).toNat ∨ ∃ r ∈ opcodeTable, opcode r.pattern = opcode w ∧ r.selects w = false) →
    step s = .next { s with pending := rest, out := { rsp := some ⟨.illegalOp, 0⟩ } }

/-- The model's choice of log entry 3, read from R281's "the block waits for operations": with nothing presented,
a step changes nothing and emits nothing. -/
def Obligations.BlockWaitsWhenNothingIsPresented : Prop :=
  ∀ s : State, s.pending = [] → step s = .next { s with out := {} }

/-- R150: `INIT`, every outcome. -/
def Obligations.InitConfiguresOrRefuses : Prop :=
  ∀ (baud : Baud) (parity : BitVec 2) (s : State),
    (s.fault ≠ .clear → AnswersOnly (.init baud parity) s .faulted 0) ∧
    (s.fault = .clear → (baud = 0#24 ∨ parity = 3#2) → AnswersOnly (.init baud parity) s .invalidArg 0) ∧
    (s.fault = .clear → baud ≠ 0#24 → ∀ q : Parity, parity = q.code →
      (s.cfgOk = false →
        exec (.init baud parity) s =
          .next { s with out := { rsp := some ⟨.portError, 0⟩, cfg := some ⟨baud, q, 1, 8⟩ } }) ∧
      (s.cfgOk = true →
        exec (.init baud parity) s =
          .next { s with
            baud := baud, parity := q, t35Us := t35Of baud, configured := true,
            out := { rsp := some ⟨.ok, 0⟩, cfg := some ⟨baud, q, 1, 8⟩ } }))

/-- R151, and the bounds of R152: the threshold at each baud rate. -/
def Obligations.InterFrameThresholdFormula : Prop :=
  ∀ baud : Baud,
    (19200 < baud.toNat → t35Of baud = 1750) ∧
    (1 ≤ baud.toNat → baud.toNat ≤ 19200 →
      (t35Of baud).toNat = 38500000 / baud.toNat ∧ 2005 ≤ (t35Of baud).toNat ∧ (t35Of baud).toNat ≤ 38500000)

/-- R155: `START`, every outcome. -/
def Obligations.StartSynchronisesOrRefuses : Prop :=
  ∀ s : State,
    (s.fault ≠ .clear → AnswersOnly .start s .faulted 0) ∧
    (s.fault = .clear → s.configured = false → AnswersOnly .start s .illegalState 0) ∧
    (s.fault = .clear → s.configured = true →
      exec .start s =
        .next { s with
          rcvState := .init, rxEn := true, txEn := false,
          tmrMode := .interFrameDelay, tmrThr := s.t35Us, tmrArmed := true,
          out := { rsp := some ⟨.ok, 0⟩, tmr := some (.arm .interFrameDelay s.t35Us) } })

/-- R158: `STOP`, every outcome. -/
def Obligations.StopQuietensOrRefuses : Prop :=
  ∀ s : State,
    (s.fault ≠ .clear → AnswersOnly .stop s .faulted 0) ∧
    (s.fault = .clear → s.configured = false → AnswersOnly .stop s .illegalState 0) ∧
    (s.fault = .clear → s.configured = true →
      exec .stop s =
        .next { s with
          rxEn := false, txEn := false, tmrArmed := false,
          out := { rsp := some ⟨.ok, 0⟩, tmr := some .disarm } })

/-- R162: `RD_REG` reads in every state, a Faulted one too, and changes nothing; R42 to R47: each word, field by
field, the unlisted bits 0. -/
def Obligations.StatusWordsReadFieldByField : Prop :=
  ∀ s : State,
    (∀ idx : BitVec 4, 5 < idx.toNat → AnswersOnly (.rdReg idx) s .invalidArg 0) ∧
    (∃ w, AnswersOnly (.rdReg 0) s .ok w ∧
      field w 0 2 = s.rcvState.code ∧ field w 2 2 = s.sndState.code ∧ field w 4 2 = s.tmrMode.code ∧
      w.getLsbD 6 = s.tmrArmed ∧ w.getLsbD 7 = s.rxEn ∧ w.getLsbD 8 = s.txEn ∧ w.getLsbD 9 = s.isBcast ∧
      w.getLsbD 10 = s.configured ∧ w.getLsbD 11 = false ∧ field w 12 4 = s.fault.code ∧ field w 16 16 = 0) ∧
    (∃ w, AnswersOnly (.rdReg 1) s .ok w ∧
      field w 0 24 = s.baud ∧ field w 24 2 = s.parity.code ∧ field w 26 6 = 0) ∧
    AnswersOnly (.rdReg 2) s .ok s.t35Us ∧
    (∃ w, AnswersOnly (.rdReg 3) s .ok w ∧ field w 0 12 = s.rcvPos ∧ field w 12 20 = 0) ∧
    (∃ w, AnswersOnly (.rdReg 4) s .ok w ∧
      field w 0 12 = s.sndPtr ∧ field w 12 4 = 0 ∧ field w 16 12 = s.sndCnt ∧ field w 28 4 = 0) ∧
    AnswersOnly (.rdReg 5) s .ok s.tmrThr

/-- R175: `SEND`, every outcome, with the three cells it stores to and every other cell kept. -/
def Obligations.SendFramesInPlaceOrRefuses : Prop :=
  ∀ (addr : Byte) (len : Pos) (s : State),
    (s.fault ≠ .clear → AnswersOnly (.send addr len) s .faulted 0) ∧
    (s.fault = .clear → s.configured = false → AnswersOnly (.send addr len) s .illegalState 0) ∧
    (s.fault = .clear → s.configured = true → (len = 0#12 ∨ s.params.pduMax < len.toNat) →
      AnswersOnly (.send addr len) s .invalidArg 0) ∧
    (s.fault = .clear → s.configured = true → len ≠ 0#12 → len.toNat ≤ s.params.pduMax →
      (s.rcvState ≠ .idle ∨ s.sndState ≠ .idle) → AnswersOnly (.send addr len) s .busy 0) ∧
    (s.fault = .clear → s.configured = true → len ≠ 0#12 → len.toNat ≤ s.params.pduMax →
      s.rcvState = .idle → s.sndState = .idle →
      ∃ t, exec (.send addr len) s = .next t ∧
        t = { s with
              buf := t.buf, sndPtr := 0, sndCnt := BitVec.ofNat 12 (len.toNat + 3), sndState := .transmitting,
              rxEn := false, txEn := true, out := { rsp := some ⟨.ok, 0⟩ } } ∧
        t.cell 0 = addr ∧
        t.cell (len.toNat + 1) = (crc16 (addr :: s.memRead 1 len.toNat)).extractLsb' 0 8 ∧
        t.cell (len.toNat + 2) = (crc16 (addr :: s.memRead 1 len.toNat)).extractLsb' 8 8 ∧
        ∀ a, a ≠ 0 → a ≠ len.toNat + 1 → a ≠ len.toNat + 2 → t.cell a = s.cell a)

/-- R170: `RECEIVE`, every outcome; no state is written on any path. -/
def Obligations.ReceiveValidatesTheFrame : Prop :=
  ∀ s : State,
    (s.fault ≠ .clear → AnswersOnly .receive s .faulted 0) ∧
    (s.fault = .clear → (s.rcvState = .receiving ∨ s.sndState = .transmitting) → AnswersOnly .receive s .busy 0) ∧
    (s.fault = .clear → s.rcvState ≠ .receiving → s.sndState ≠ .transmitting → s.rcvPos.toNat < 4 →
      AnswersOnly .receive s .invalid 0) ∧
    (s.fault = .clear → s.rcvState ≠ .receiving → s.sndState ≠ .transmitting → 4 ≤ s.rcvPos.toNat →
      s.rcvPos.toNat ≤ s.bufSize → crc16 (s.memRead 0 s.rcvPos.toNat) ≠ 0#16 → AnswersOnly .receive s .invalid 0) ∧
    (s.fault = .clear → s.rcvState ≠ .receiving → s.sndState ≠ .transmitting → 4 ≤ s.rcvPos.toNat →
      s.rcvPos.toNat ≤ s.bufSize → crc16 (s.memRead 0 s.rcvPos.toNat) = 0#16 →
      AnswersOnly .receive s .ok (0#8 ++ s.cell 0 ++ 0#4 ++ (s.rcvPos - 3)))

/-- R136 and R139: `CRC16` and `VERIFY`, every outcome; no state is written on any path. -/
def Obligations.CodecOperationsComputeOrRefuse : Prop :=
  ∀ (off len : Pos) (s : State),
    (s.fault ≠ .clear → AnswersOnly (.crc16 off len) s .faulted 0 ∧ AnswersOnly (.verify len) s .faulted 0) ∧
    (s.fault = .clear → s.bufSize < off.toNat + len.toNat → AnswersOnly (.crc16 off len) s .invalidArg 0) ∧
    (s.fault = .clear → s.bufSize < len.toNat → AnswersOnly (.verify len) s .invalidArg 0) ∧
    (s.fault = .clear → (s.rcvState = .receiving ∨ s.sndState = .transmitting) →
      (off.toNat + len.toNat ≤ s.bufSize → AnswersOnly (.crc16 off len) s .busy 0) ∧
      (len.toNat ≤ s.bufSize → AnswersOnly (.verify len) s .busy 0)) ∧
    (s.fault = .clear → s.rcvState ≠ .receiving → s.sndState ≠ .transmitting →
      (off.toNat + len.toNat ≤ s.bufSize →
        AnswersOnly (.crc16 off len) s .ok (0#16 ++ crc16 (s.memRead off.toNat len.toNat))) ∧
      (len.toNat ≤ s.bufSize →
        AnswersOnly (.verify len) s .ok (if crc16 (s.memRead 0 len.toNat) = 0#16 then 1 else 0)))

/-- R180: `BUF_RD`, every outcome; no state is written on any path. -/
def Obligations.BufferReadReturnsTheCell : Prop :=
  ∀ (off : Pos) (s : State),
    (s.fault ≠ .clear → AnswersOnly (.bufRd off) s .faulted 0) ∧
    (s.fault = .clear → s.bufSize ≤ off.toNat → AnswersOnly (.bufRd off) s .invalidArg 0) ∧
    (s.fault = .clear → off.toNat < s.bufSize → (s.rcvState = .receiving ∨ s.sndState = .transmitting) →
      AnswersOnly (.bufRd off) s .busy 0) ∧
    (s.fault = .clear → off.toNat < s.bufSize → s.rcvState ≠ .receiving → s.sndState ≠ .transmitting →
      AnswersOnly (.bufRd off) s .ok (0#24 ++ s.cell off.toNat))

/-- R183: `BUF_WR`, every outcome, with the one cell it stores to and every other cell kept. -/
def Obligations.BufferWriteStoresOneCell : Prop :=
  ∀ (off : Pos) (data : Byte) (s : State),
    (s.fault ≠ .clear → AnswersOnly (.bufWr off data) s .faulted 0) ∧
    (s.fault = .clear → s.bufSize ≤ off.toNat → AnswersOnly (.bufWr off data) s .invalidArg 0) ∧
    (s.fault = .clear → off.toNat < s.bufSize → (s.rcvState = .receiving ∨ s.sndState = .transmitting) →
      AnswersOnly (.bufWr off data) s .busy 0) ∧
    (s.fault = .clear → off.toNat < s.bufSize → s.rcvState ≠ .receiving → s.sndState ≠ .transmitting →
      ∃ t, exec (.bufWr off data) s = .next t ∧
        t = { s with buf := t.buf, out := { rsp := some ⟨.ok, 0⟩ } } ∧
        t.cell off.toNat = data ∧ ∀ a, a ≠ off.toNat → t.cell a = s.cell a)

/-- R190: a byte in Init or Error is dropped and re-arms the inter-frame timer. -/
def Obligations.ByteOnABusyBusIsDropped : Prop :=
  ∀ (b : Byte) (s : State), s.fault = .clear → (s.rcvState = .init ∨ s.rcvState = .error) →
    exec (.rxByte b) s =
      .next { s with
        tmrMode := .interFrameDelay, tmrThr := s.t35Us, tmrArmed := true,
        out := { tmr := some (.arm .interFrameDelay s.t35Us) } }

/-- R191: a byte in Idle starts a new frame at cell 0 and replaces whatever timing was pending. -/
def Obligations.ByteInIdleStartsAFrame : Prop :=
  ∀ (b : Byte) (s : State), s.fault = .clear → s.rcvState = .idle →
    ∃ t, exec (.rxByte b) s = .next t ∧
      t = { s with
            buf := t.buf, rcvPos := 1, rcvState := .receiving,
            tmrMode := .interFrameDelay, tmrThr := s.t35Us, tmrArmed := true,
            out := { tmr := some (.arm .interFrameDelay s.t35Us) } } ∧
      t.cell 0 = b ∧ ∀ a, a ≠ 0 → t.cell a = s.cell a

/-- R192: a byte in Receiving is appended while the buffer is not full; otherwise the receiver goes to Error. -/
def Obligations.ByteInReceivingIsAppendedOrOversized : Prop :=
  ∀ (b : Byte) (s : State), s.fault = .clear → s.rcvState = .receiving →
    (s.rcvPos.toNat < s.bufSize →
      ∃ t, exec (.rxByte b) s = .next t ∧
        t = { s with
              buf := t.buf, rcvPos := s.rcvPos + 1,
              tmrMode := .interFrameDelay, tmrThr := s.t35Us, tmrArmed := true,
              out := { tmr := some (.arm .interFrameDelay s.t35Us) } } ∧
        t.cell s.rcvPos.toNat = b ∧ ∀ a, a ≠ s.rcvPos.toNat → t.cell a = s.cell a) ∧
    (s.bufSize ≤ s.rcvPos.toNat →
      exec (.rxByte b) s =
        .next { s with
          rcvState := .error, tmrMode := .interFrameDelay, tmrThr := s.t35Us, tmrArmed := true,
          out := { tmr := some (.arm .interFrameDelay s.t35Us) } })

/-- R200: `TX_EMPTY` with the transmitter Idle turns the line to receive. -/
def Obligations.TxEmptyInIdleReenablesReceive : Prop :=
  ∀ s : State, s.fault = .clear → s.sndState = .idle →
    exec .txEmpty s = .next { s with rxEn := true, txEn := false, out := {} }

/-- R201: `TX_EMPTY` while Transmitting emits the next byte. -/
def Obligations.TxEmptyEmitsTheNextByte : Prop :=
  ∀ s : State, s.fault = .clear → s.sndState = .transmitting → s.sndCnt ≠ 0#12 → s.sndPtr.toNat < s.bufSize →
    exec .txEmpty s =
      .next { s with
        sndPtr := s.sndPtr + 1, sndCnt := s.sndCnt - 1, out := { tx := some (s.cell s.sndPtr.toNat) } }

/-- R202: `TX_EMPTY` with no byte remaining completes the transmission, by the address in cell 0. -/
def Obligations.TxEmptyCompletesTheTransmission : Prop :=
  ∀ s : State, s.fault = .clear → s.sndState = .transmitting → s.sndCnt = 0#12 →
    (s.cell 0 = 0#8 →
      exec .txEmpty s =
        .next { s with
          isBcast := true, txEn := false, rxEn := true, sndState := .waitFollowUp,
          tmrMode := .convertDelay, tmrThr := s.params.convertDelayUs, tmrArmed := true,
          out := { tmr := some (.arm .convertDelay s.params.convertDelayUs) } }) ∧
    (s.cell 0 ≠ 0#8 →
      exec .txEmpty s =
        .next { s with
          isBcast := false, txEn := false, rxEn := true, sndState := .waitFollowUp,
          tmrMode := .respondTimeout, tmrThr := s.params.respondTimeoutUs, tmrArmed := true,
          out := { tmr := some (.arm .respondTimeout s.params.respondTimeoutUs) } })

/-- R203 and R211: the two assertion faults set the latch, change nothing else and emit nothing (R236). -/
def Obligations.ContractBreachesSetTheFaultLatch : Prop :=
  (∀ s : State, s.fault = .clear → s.sndState = .waitFollowUp →
    exec .txEmpty s = .next { s with fault := .txEmptyInWaitFollowUp, out := {} }) ∧
  (∀ s : State, s.fault = .clear → s.sndState = .transmitting →
    exec .tmrExp s = .next { s with fault := .timerWhileTransmitting, out := {} })

/-- R215: every row of the decision table of `TMR_EXP`, with the three writes of R210 and nothing else. -/
def Obligations.ExpiryFollowsTheDecisionTable : Prop :=
  ∀ s : State, s.fault = .clear →
    let after : Option Event → State := fun ev =>
      { s with rcvState := .idle, sndState := .idle, tmrArmed := false, out := { tmr := some .disarm, ev := ev } }
    (s.sndState = .transmitting →
      exec .tmrExp s = .next { s with fault := .timerWhileTransmitting, out := {} }) ∧
    (s.sndState ≠ .transmitting → s.rcvState = .init →
      exec .tmrExp s = .next (after (some ⟨.ready, .none⟩))) ∧
    (s.sndState ≠ .transmitting → s.rcvState = .receiving →
      exec .tmrExp s = .next (after (some ⟨.frameReceived, .none⟩))) ∧
    (s.sndState ≠ .transmitting → s.rcvState = .error →
      exec .tmrExp s = .next (after (some ⟨.errorProcess, .receiveDataError⟩))) ∧
    (s.sndState = .waitFollowUp → s.rcvState = .idle → s.isBcast = false →
      exec .tmrExp s = .next (after (some ⟨.errorProcess, .respondTimeout⟩))) ∧
    (s.sndState = .waitFollowUp → s.rcvState = .idle → s.isBcast = true → s.tmrMode = .convertDelay →
      exec .tmrExp s = .next (after (some ⟨.execute, .none⟩))) ∧
    (s.sndState = .waitFollowUp → s.rcvState = .idle → s.isBcast = true → s.tmrMode ≠ .convertDelay →
      exec .tmrExp s = .next (after none)) ∧
    (s.sndState = .idle → s.rcvState = .idle → s.tmrMode = .convertDelay →
      exec .tmrExp s = .next (after (some ⟨.execute, .none⟩))) ∧
    (s.sndState = .idle → s.rcvState = .idle → s.tmrMode ≠ .convertDelay →
      exec .tmrExp s = .next (after none))

/-- R236: a Faulted block answers `Faulted` to every host operation but `RD_REG` and ignores every stimulus, and
neither changes anything. -/
def Obligations.FaultedBlockDoesNothing : Prop :=
  ∀ (i : Instr) (s : State), s.fault ≠ .clear →
    (i.agent = .host → (∀ idx, i ≠ .rdReg idx) → AnswersOnly i s .faulted 0) ∧
    (i.agent ≠ .host → exec i s = .next { s with out := {} })

/-- R41: nothing but the two causes sets the latch, and once set nothing but reset changes it. -/
def Obligations.FaultLatchIsStickyAndHasTwoCauses : Prop :=
  (∀ (i : Instr) (s t : State), exec i s = .next t → t.fault ≠ s.fault →
    s.fault = .clear ∧
      ((i = .tmrExp ∧ s.sndState = .transmitting ∧ t.fault = .timerWhileTransmitting) ∨
       (i = .txEmpty ∧ s.sndState = .waitFollowUp ∧ t.fault = .txEmptyInWaitFollowUp))) ∧
  (∀ s t : State, step s = .next t → s.fault ≠ .clear → (∀ rest, s.pending ≠ .reset :: rest) → t.fault = s.fault)

/-- R38: every transition of `rcv_state` a step can make, complete. -/
def Obligations.ReceiverMovesOnlyAsListed : Prop :=
  (∀ (s t : State) (rest : List PortEvent), s.pending = .reset :: rest → step s = .next t → t.rcvState = .init) ∧
  (∀ (i : Instr) (s t : State), exec i s = .next t → t.rcvState ≠ s.rcvState →
    (i = .start ∧ t.rcvState = .init) ∨
    (∃ b, i = .rxByte b ∧ s.rcvState = .idle ∧ t.rcvState = .receiving) ∨
    (∃ b, i = .rxByte b ∧ s.rcvState = .receiving ∧ s.bufSize ≤ s.rcvPos.toNat ∧ t.rcvState = .error) ∨
    (i = .tmrExp ∧ t.rcvState = .idle)) ∧
  (∀ (i : Instr) (s : State), s.fault = .clear → s.sndState ≠ .transmitting → i = .tmrExp →
    ∃ t, exec i s = .next t ∧ t.rcvState = .idle)

/-- R39: every transition of `snd_state` a step can make, complete. -/
def Obligations.TransmitterMovesOnlyAsListed : Prop :=
  (∀ (s t : State) (rest : List PortEvent), s.pending = .reset :: rest → step s = .next t → t.sndState = .idle) ∧
  (∀ (i : Instr) (s t : State), exec i s = .next t → t.sndState ≠ s.sndState →
    (∃ addr len, i = .send addr len ∧ s.sndState = .idle ∧ s.rcvState = .idle ∧ t.sndState = .transmitting) ∨
    (i = .txEmpty ∧ s.sndState = .transmitting ∧ s.sndCnt = 0#12 ∧ t.sndState = .waitFollowUp) ∨
    (i = .tmrExp ∧ s.sndState = .waitFollowUp ∧ t.sndState = .idle))

/-- R230: a host operation answers once; when it answers anything but `Ok`, it has changed nothing, and the one
output besides is the request that `PortError` answers. -/
def Obligations.RefusedOperationChangesNothing : Prop :=
  ∀ (i : Instr) (s t : State), i.agent = .host → exec i s = .next t →
    ∃ r, t.out.rsp = some r ∧
      (r.status ≠ .ok → t = { s with out := t.out } ∧ r.data = 0 ∧
        t.out.tx = none ∧ t.out.tmr = none ∧ t.out.ev = none ∧ (r.status ≠ .portError → t.out.cfg = none))

/-- R240, R241: no step but an expiry produces an event, and never `FrameSent` or `ExecuteFunctionError`; R238,
R246: a stimulus answers nothing, and only `TX_EMPTY` emits a byte. -/
def Obligations.OutputsComeFromTheirOperations : Prop :=
  ∀ (i : Instr) (s t : State), exec i s = .next t →
    (i ≠ .tmrExp → t.out.ev = none) ∧
    (∀ e, t.out.ev = some e → e.code ≠ .frameSent ∧ e.tag ≠ .executeFunctionError ∧
      (e.code = .errorProcess ↔ e.tag ≠ .none)) ∧
    (i.agent ≠ .host → t.out.rsp = none) ∧
    (i ≠ .txEmpty → t.out.tx = none) ∧
    ((∀ baud parity, i ≠ .init baud parity) → t.out.cfg = none)

/-- R30: which operations write which cell. -/
def Obligations.CellsHaveThreeWriters : Prop :=
  ∀ (i : Instr) (s t : State) (a : Nat), exec i s = .next t → t.cell a ≠ s.cell a →
    (∃ off data, i = .bufWr off data ∧ a = off.toNat) ∨
    (∃ addr len, i = .send addr len ∧ (a = 0 ∨ a = len.toNat + 1 ∨ a = len.toNat + 2)) ∨
    (∃ b, i = .rxByte b ∧ ((s.rcvState = .idle ∧ a = 0) ∨ (s.rcvState = .receiving ∧ a = s.rcvPos.toNat)))

/-- R48: who may write which register, each of the sixteen (the buffer's cells are in `CellsHaveThreeWriters`), and
that no operation writes the model's own `params`, `resetEpoch`, `pending` and `cfgOk` (log entries 1, 4, 6, 7). -/
def Obligations.RegistersHaveTheirWritersOnly : Prop :=
  ∀ (i : Instr) (s t : State), exec i s = .next t →
    (t.configured ≠ s.configured ∨ t.baud ≠ s.baud ∨ t.parity ≠ s.parity ∨ t.t35Us ≠ s.t35Us →
      ∃ baud parity, i = .init baud parity) ∧
    (t.rcvState ≠ s.rcvState → i = .start ∨ (∃ b, i = .rxByte b) ∨ i = .tmrExp) ∧
    (t.sndState ≠ s.sndState → (∃ addr len, i = .send addr len) ∨ i = .txEmpty ∨ i = .tmrExp) ∧
    (t.tmrMode ≠ s.tmrMode ∨ t.tmrThr ≠ s.tmrThr → i = .start ∨ (∃ b, i = .rxByte b) ∨ i = .txEmpty) ∧
    (t.tmrArmed ≠ s.tmrArmed → i = .start ∨ i = .stop ∨ (∃ b, i = .rxByte b) ∨ i = .txEmpty ∨ i = .tmrExp) ∧
    (t.rcvPos ≠ s.rcvPos → ∃ b, i = .rxByte b) ∧
    (t.sndPtr ≠ s.sndPtr ∨ t.sndCnt ≠ s.sndCnt → (∃ addr len, i = .send addr len) ∨ i = .txEmpty) ∧
    (t.rxEn ≠ s.rxEn ∨ t.txEn ≠ s.txEn →
      i = .start ∨ i = .stop ∨ (∃ addr len, i = .send addr len) ∨ i = .txEmpty) ∧
    (t.isBcast ≠ s.isBcast → i = .txEmpty) ∧
    (t.fault ≠ s.fault → i = .txEmpty ∨ i = .tmrExp) ∧
    t.params = s.params ∧ t.resetEpoch = s.resetEpoch ∧ t.pending = s.pending ∧ t.cfgOk = s.cfgOk

/-- R140, R65: reading operations leave every later step unchanged: only the step's outputs differ. -/
def Obligations.ReadingOperationsArePure : Prop :=
  ∀ (i : Instr) (s t : State),
    (i = .receive ∨ (∃ off len, i = .crc16 off len) ∨ (∃ len, i = .verify len) ∨ (∃ off, i = .bufRd off) ∨
      (∃ idx, i = .rdReg idx)) →
    exec i s = .next t → t = { s with out := t.out } ∧ ∀ j, exec j t = exec j s

/-- R52 item 3, second clause: after a `SEND` of length `len` answered `Ok`, `snd_ptr + snd_cnt` is `len + 3`; every
other operation, a `SEND` answered otherwise among them, keeps the sum. -/
def Obligations.FrameLengthIsKeptWhileSending : Prop :=
  ∀ (i : Instr) (s t : State), s.Inv → exec i s = .next t →
    (∀ addr len r, i = .send addr len → t.out.rsp = some r → r.status = .ok →
      t.sndPtr.toNat + t.sndCnt.toNat = len.toNat + 3) ∧
    ((∀ addr len r, i = .send addr len → t.out.rsp = some r → r.status ≠ .ok) →
      t.sndPtr.toNat + t.sndCnt.toNat = s.sndPtr.toNat + s.sndCnt.toNat)

/-- R52: the invariants hold at reset. -/
def Obligations.InvariantsHoldAtReset : Prop := State.reset.Inv ∧ State.reset.ContractInv

/-- R52: every step keeps the invariants, with no assumption on the environment. -/
def Obligations.EveryStepKeepsTheInvariants : Prop :=
  ∀ s t : State, s.Inv → step s = .next t → t.Inv

/-- Every state with the invariants takes a step: no operation stops the machine there. -/
def Obligations.InvariantStatesAlwaysStep : Prop :=
  ∀ s : State, s.Inv → ∃ t, step s = .next t

/-- The model's choice of log entry 10: where R10's precondition on a read fails, the machine stops by name. -/
def Obligations.ReadOutsideTheBufferStops : Prop :=
  (∀ s : State, s.fault = .clear → s.rcvState ≠ .receiving → s.sndState ≠ .transmitting → 4 ≤ s.rcvPos.toNat →
    s.bufSize < s.rcvPos.toNat → exec .receive s = .fault (.cellOutsideBuffer s.bufSize)) ∧
  (∀ s : State, s.fault = .clear → s.sndState = .transmitting → s.sndCnt ≠ 0#12 → s.bufSize ≤ s.sndPtr.toNat →
    exec .txEmpty s = .fault (.cellOutsideBuffer s.sndPtr.toNat))

/-- R290: while the environment keeps E1, E2, E3 and E5, every step keeps the block safe: `fault` stays 0. -/
def Obligations.KeptContractKeepsTheBlockSafe : Prop :=
  ∀ (s : State) (e : PortEvent) (rest : List PortEvent),
    s.ContractInv → s.pending = e :: rest → e.keepsContract s →
    ∃ t, step s = .next t ∧ t.ContractInv

/-- R290: under the contract only rows 2, 6 to 12 and 14 of R215 occur, each with one event; the event that ends a
transaction is one of those R290 lists. -/
def Obligations.ExpiryUnderContractTellsTheHostOnce : Prop :=
  ∀ (s : State) (a : Bool) (rest : List PortEvent),
    s.ContractInv → s.pending = .tmrExpired a :: rest → s.tmrArmed = true →
    ∃ t e, step s = .next t ∧ t.out.ev = some e ∧ t.rcvState = .idle ∧ t.sndState = .idle ∧ t.tmrArmed = false ∧
      (s.rcvState = .init → s.sndState = .idle ∧ s.tmrMode = .interFrameDelay ∧ e = ⟨.ready, .none⟩) ∧
      (s.rcvState = .receiving → s.tmrMode = .interFrameDelay ∧ e = ⟨.frameReceived, .none⟩) ∧
      (s.rcvState = .error → s.tmrMode = .interFrameDelay ∧ e = ⟨.errorProcess, .receiveDataError⟩) ∧
      (s.rcvState = .idle → s.sndState = .waitFollowUp ∧
        ((s.isBcast = false ∧ s.tmrMode = .respondTimeout ∧ e = ⟨.errorProcess, .respondTimeout⟩) ∨
         (s.isBcast = true ∧ s.tmrMode = .convertDelay ∧ e = ⟨.execute, .none⟩)))

/-- R130: values that spec/95_test_vectors.md T1 lists, and R132 item 2's example of the bytes appended high first. -/
def Obligations.ListedCrcValues : Prop :=
  crc16 [] = 0xFFFF#16 ∧ crc16 [0x00] = 0x40BF#16 ∧ crc16 [0xFF, 0xFF] = 0x0000#16 ∧
  crc16 [0x01, 0x03] = 0x2140#16 ∧ crc16 [0x05, 0x03, 0x00, 0x00, 0x00, 0x01] = 0x8E85#16 ∧
  crc16 [0x31, 0x32, 0x33, 0x34, 0x35, 0x36, 0x37, 0x38, 0x39] = 0x4B37#16 ∧
  verify [0x05, 0x03, 0x02, 0x00, 0x7B, 0x09, 0xA7] = true ∧
  verify [0x05, 0x03, 0x02, 0x00, 0x7B, 0xA7, 0x09] = false ∧ crc16 [0x00, 0x40, 0xBF] = 0xB001#16

/-- R132 items 2 and 3: the CRC continues over a concatenation, and appending it low byte first leaves residue 0. -/
def Obligations.AppendedCrcLeavesNoResidue : Prop :=
  (∀ a b : List Byte, crc16 (a ++ b) = crcFrom (crc16 a) b) ∧
  (∀ m : List Byte, crc16 (m ++ [(crc16 m).extractLsb' 0 8, (crc16 m).extractLsb' 8 8]) = 0#16)

/-- R131: the table form is the same function as the loop of R130. -/
def Obligations.TableFormComputesTheSameCrc : Prop :=
  ∀ bytes : List Byte, crcTableFrom Config.crcInit bytes = crc16 bytes

/-- R132 item 4 (single-bit detection) and more: changing any one byte of a frame that verifies makes it fail. -/
def Obligations.OneChangedByteIsDetected : Prop :=
  ∀ (pre post : List Byte) (b c : Byte), b ≠ c →
    verify (pre ++ b :: post) = true → verify (pre ++ c :: post) = false

/-- R134: the empty list and every one-byte list fail; `[0xFF, 0xFF]` is the only two-byte list that verifies
(spec/95_test_vectors.md T1). -/
def Obligations.ShortListsThatVerify : Prop :=
  verify [] = false ∧ (∀ b : Byte, verify [b] = false) ∧
  (∀ a b : Byte, verify [a, b] = true ↔ a = 0xFF#8 ∧ b = 0xFF#8)

/-- R135: un-framing undoes framing, for every address and every PDU of at least one byte. -/
def Obligations.ParseOfFrameIsAddressAndPdu : Prop :=
  ∀ (addr : Byte) (pdu : List Byte), 1 ≤ pdu.length → parseFrame (frameOf addr pdu) = some (addr, pdu)

/-- R113, R175, R201, R202, R108: `SENDP addr, pdu` and one strobe more than bytes put exactly `frame_of(addr, pdu)`
on the wire and turn the line around. -/
def Obligations.SentFrameGoesOutOnTheWire : Prop :=
  ∀ (s : State) (addr : Byte) (pdu : List Byte) (c : Bool),
    s.params.Legal → s.fault = .clear → s.configured = true → s.rcvState = .idle → s.sndState = .idle →
    1 ≤ pdu.length → pdu.length ≤ s.params.pduMax →
    ∃ outs t,
      runEvents (commands c (Pseudo.sendp addr pdu).expand ++ List.replicate (pdu.length + 4) .txEmpty) s
        = some (outs, t) ∧
      outs.filterMap (·.tx) = frameOf addr pdu ∧
      t.sndState = .waitFollowUp ∧ t.rxEn = true ∧ t.txEn = false ∧ t.tmrArmed = true ∧
      (addr = 0#8 → t.isBcast = true ∧ t.tmrMode = .convertDelay ∧ t.tmrThr = s.params.convertDelayUs) ∧
      (addr ≠ 0#8 → t.isBcast = false ∧ t.tmrMode = .respondTimeout ∧ t.tmrThr = s.params.respondTimeoutUs)

/-- R191, R192, R210, R170, R135: a frame of any bytes that fits the buffer, then silence: one `FrameReceived`, and
`RECEIVE` answers what `parse_frame` of those bytes says; the bytes stand in the buffer. -/
def Obligations.ReceivedFrameIsParsed : Prop :=
  ∀ (s : State) (f : List Byte) (a c : Bool),
    s.params.Legal → s.fault = .clear → s.rcvState = .idle → s.sndState ≠ .transmitting →
    1 ≤ f.length → f.length ≤ s.bufSize →
    ∃ outs t,
      runEvents (f.map .rxValid ++ [.tmrExpired a] ++ commands c [.receive]) s = some (outs, t) ∧
      outs.filterMap (·.ev) = [⟨.frameReceived, .none⟩] ∧
      outs.filterMap (·.rsp) =
        [match parseFrame f with
          | some (addr, pdu) => ⟨.ok, 0#8 ++ addr ++ 0#4 ++ BitVec.ofNat 12 pdu.length⟩
          | none => ⟨.invalid, 0⟩] ∧
      t.memRead 0 f.length = f ∧ t.rcvPos.toNat = f.length ∧
      t.rcvState = .idle ∧ t.sndState = .idle ∧ t.tmrArmed = false

/-- R192, R210: a frame longer than the buffer, then silence: one `ErrorProcess(ReceiveDataError)`, and the first
`BUF_SIZE` bytes stand in the buffer. -/
def Obligations.OversizedFrameIsReported : Prop :=
  ∀ (s : State) (f : List Byte) (a : Bool),
    s.params.Legal → s.fault = .clear → s.rcvState = .idle → s.sndState ≠ .transmitting → s.bufSize < f.length →
    ∃ outs t,
      runEvents (f.map .rxValid ++ [.tmrExpired a]) s = some (outs, t) ∧
      outs.filterMap (·.ev) = [⟨.errorProcess, .receiveDataError⟩] ∧
      t.memRead 0 s.bufSize = f.take s.bufSize ∧ t.rcvPos.toNat = s.bufSize ∧ t.rcvState = .idle

/-- R155, R190, R210, R286: from `START` to the first expiry every byte is dropped; the expiry hands out `Ready` and
the receiver is Idle. -/
def Obligations.StartWaitsForAQuietBus : Prop :=
  ∀ (s : State) (f : List Byte) (a c : Bool),
    s.fault = .clear → s.configured = true → s.sndState ≠ .transmitting →
    ∃ outs t,
      runEvents (commands c [.start] ++ f.map .rxValid ++ [.tmrExpired a]) s = some (outs, t) ∧
      outs.filterMap (·.ev) = [⟨.ready, .none⟩] ∧
      t.rcvState = .idle ∧ t.sndState = .idle ∧ t.tmrArmed = false ∧ t.rcvPos = s.rcvPos ∧
      ∀ k, t.cell k = s.cell k

/-- R282, every row: what each operation does straight after reset, whatever the unknown bytes in the buffer are.
The offsets are those of the instance `State.reset` describes, with `PDU_MAX` 253 and so 256 cells, which is the
model's choice (log entry 4); `INIT` is taken at both levels of `cfg_ok` (log entry 7). -/
def Obligations.FirstOperationAfterReset : Prop :=
  (∀ (baud : Baud) (parity : BitVec 2) (c : Bool), baud = 0#24 ∨ parity = 3#2 →
    AnswersOnly (.init baud parity) { State.reset with cfgOk := c } .invalidArg 0) ∧
  (∀ (baud : Baud) (q : Parity), baud ≠ 0#24 →
    exec (.init baud q.code) { State.reset with cfgOk := false } =
      .next { State.reset with
        cfgOk := false, out := { rsp := some ⟨.portError, 0⟩, cfg := some ⟨baud, q, 1, 8⟩ } }) ∧
  (∀ (baud : Baud) (q : Parity), baud ≠ 0#24 →
    exec (.init baud q.code) { State.reset with cfgOk := true } =
      .next { State.reset with
        configured := true, baud := baud, parity := q, t35Us := t35Of baud, cfgOk := true,
        out := { rsp := some ⟨.ok, 0⟩, cfg := some ⟨baud, q, 1, 8⟩ } }) ∧
  (∀ (i : Instr) (c : Bool) (t : State), exec i { State.reset with cfgOk := c } = .next t → t.configured = true →
    ∃ baud parity, i = .init baud parity) ∧
  AnswersOnly .start State.reset .illegalState 0 ∧ AnswersOnly .stop State.reset .illegalState 0 ∧
  (∀ addr len, AnswersOnly (.send addr len) State.reset .illegalState 0) ∧
  AnswersOnly .receive State.reset .invalid 0 ∧
  (∀ off : Pos, off.toNat ≤ 256 → AnswersOnly (.crc16 off 0) State.reset .ok 0xFFFF) ∧
  (∀ off len : Pos, off.toNat + len.toNat ≤ 256 →
    AnswersOnly (.crc16 off len) State.reset .ok (0#16 ++ crc16 (State.reset.memRead off.toNat len.toNat))) ∧
  AnswersOnly (.verify 0) State.reset .ok 0 ∧
  (∀ len : Pos, len.toNat ≤ 256 →
    AnswersOnly (.verify len) State.reset .ok (if crc16 (State.reset.memRead 0 len.toNat) = 0#16 then 1 else 0)) ∧
  (∀ idx : BitVec 4, idx.toNat ≤ 5 → AnswersOnly (.rdReg idx) State.reset .ok 0) ∧
  (∀ off : Pos, off.toNat < 256 →
    AnswersOnly (.bufRd off) State.reset .ok ((Config.bufAtReset 0 off.toNat).setWidth 32)) ∧
  (∀ (off : Pos) (data : Byte), off.toNat < 256 →
    ∃ t, exec (.bufWr off data) State.reset = .next t ∧ t.out.rsp = some ⟨.ok, 0⟩ ∧ t.cell off.toNat = data) ∧
  (∀ b, ∃ t, exec (.rxByte b) State.reset = .next t ∧ t.statusWord = 0x00000040#32 ∧ t.tmrThr = 0 ∧
    t.out.tmr = some (.arm .interFrameDelay 0) ∧ ∀ a, t.cell a = State.reset.cell a) ∧
  (∃ t, exec .txEmpty State.reset = .next t ∧ t.statusWord = 0x00000080#32) ∧
  (∃ t, exec .tmrExp State.reset = .next t ∧ t.statusWord = 0x00000001#32 ∧ t.out.ev = some ⟨.ready, .none⟩)

/-- R23, R25 to R27, R41, R105, R106: the enumerations' codes are the listed ones, each value has a code of its own,
so the reserved codes are never read (R52 item 4) and never produced. -/
def Obligations.ReservedCodesAreNeverRead : Prop :=
  (∀ s : State, s.sndState.code ≠ 3#2 ∧ s.tmrMode.code ≠ 3#2 ∧ s.parity.code ≠ 3#2 ∧ s.fault.code.toNat ≤ 2) ∧
  (∀ p : BitVec 2, Parity.ofCode p = none ↔ p = 3#2) ∧ (∀ q : Parity, Parity.ofCode q.code = some q) ∧
  [Status.ok, .portError, .invalidArg, .illegalState, .invalid, .busy, .illegalOp, .faulted].map Status.code =
    [0, 1, 2, 3, 4, 5, 6, 7] ∧
  [EventCode.ready, .frameSent, .frameReceived, .execute, .errorProcess].map EventCode.code = [0, 1, 2, 3, 4] ∧
  [EventTag.none, .respondTimeout, .receiveDataError, .executeFunctionError].map EventTag.code = [0, 1, 2, 3] ∧
  [RcvState.init, .idle, .receiving, .error].map RcvState.code = [0, 1, 2, 3] ∧
  [SndState.idle, .transmitting, .waitFollowUp].map SndState.code = [0, 1, 2] ∧
  [TmrMode.interFrameDelay, .respondTimeout, .convertDelay].map TmrMode.code = [0, 1, 2] ∧
  [Parity.none, .odd, .even].map Parity.code = [0, 1, 2] ∧
  [AssertLatch.clear, .timerWhileTransmitting, .txEmptyInWaitFollowUp].map AssertLatch.code = [0, 1, 2]
end

