-- ==== Sys2Proof/Laws/Crc.lean ====
section
/-! SUPPORT. The CRC's shift is linear over exclusive-or and loses nothing; the loop continues over a concatenation. -/

namespace Sys2Proof.Machine

theorem crcFrom_append (c : Half) (a b : List Byte) : crcFrom c (a ++ b) = crcFrom (crcFrom c a) b := by
  induction a generalizing c with
  | nil => rfl
  | cons x a ih => exact ih _

theorem crcShift_xor (a b : Half) : crcShift (a ^^^ b) = crcShift a ^^^ crcShift b := by
  unfold crcShift
  simp only [BitVec.getLsbD_xor, BitVec.ushiftRight_xor_distrib]
  cases a.getLsbD 0 <;> cases b.getLsbD 0 <;> simp only [Bool.xor_false, Bool.xor_true, Bool.not_false, Bool.not_true,
    Bool.false_eq_true, if_true, if_false]
  · ac_rfl
  · ac_rfl
  · rw [show a >>> 1 ^^^ Config.crcPoly ^^^ (b >>> 1 ^^^ Config.crcPoly) =
      a >>> 1 ^^^ b >>> 1 ^^^ (Config.crcPoly ^^^ Config.crcPoly) by ac_rfl]
    simp

theorem crcShifts_xor (n : Nat) (a b : Half) : crcShifts n (a ^^^ b) = crcShifts n a ^^^ crcShifts n b := by
  induction n generalizing a b with
  | zero => rfl
  | succ n ih => simp only [crcShifts, crcShift_xor, ih]

/-- The polynomial's top bit shows whether a 1 was shifted out, so a shift loses nothing. -/
theorem crcShift_eq_zero {a : Half} (h : crcShift a = 0#16) : a = 0#16 := by
  have hb : ∀ k, (crcShift a).getLsbD k = false := by simp [h]
  unfold crcShift at hb
  split at hb
  next h0 => simpa [Config.crcPoly] using hb 15
  next h0 =>
    apply BitVec.eq_of_getLsbD_eq
    intro k hk
    cases k with
    | zero => simpa using h0
    | succ k => simpa [Nat.add_comm 1 k] using hb k

theorem crcShifts_eq_zero {n : Nat} {a : Half} (h : crcShifts n a = 0#16) : a = 0#16 := by
  induction n generalizing a with
  | zero => exact h
  | succ n ih => exact crcShift_eq_zero (ih h)

theorem crcShifts_injective {n : Nat} {a b : Half} (h : crcShifts n a = crcShifts n b) : a = b := by
  have h0 : crcShifts n (a ^^^ b) = 0#16 := by rw [crcShifts_xor, h, BitVec.xor_self]
  exact BitVec.xor_eq_zero_iff.mp (crcShifts_eq_zero h0)

end Sys2Proof.Machine
end

