-- ==== Sys2Proof/Laws/State.lean ====
section
/-! SUPPORT. One lemma per field per named update of the state, true by `rfl`, so that no proof unfolds a record update. -/

namespace Sys2Proof.Machine

@[simp] theorem State.quiet_configured (s : State) : (s.quiet).configured = s.configured := rfl
@[simp] theorem State.quiet_baud (s : State) : (s.quiet).baud = s.baud := rfl
@[simp] theorem State.quiet_parity (s : State) : (s.quiet).parity = s.parity := rfl
@[simp] theorem State.quiet_t35Us (s : State) : (s.quiet).t35Us = s.t35Us := rfl
@[simp] theorem State.quiet_rcvState (s : State) : (s.quiet).rcvState = s.rcvState := rfl
@[simp] theorem State.quiet_sndState (s : State) : (s.quiet).sndState = s.sndState := rfl
@[simp] theorem State.quiet_tmrMode (s : State) : (s.quiet).tmrMode = s.tmrMode := rfl
@[simp] theorem State.quiet_tmrArmed (s : State) : (s.quiet).tmrArmed = s.tmrArmed := rfl
@[simp] theorem State.quiet_tmrThr (s : State) : (s.quiet).tmrThr = s.tmrThr := rfl
@[simp] theorem State.quiet_buf (s : State) : (s.quiet).buf = s.buf := rfl
@[simp] theorem State.quiet_rcvPos (s : State) : (s.quiet).rcvPos = s.rcvPos := rfl
@[simp] theorem State.quiet_sndPtr (s : State) : (s.quiet).sndPtr = s.sndPtr := rfl
@[simp] theorem State.quiet_sndCnt (s : State) : (s.quiet).sndCnt = s.sndCnt := rfl
@[simp] theorem State.quiet_rxEn (s : State) : (s.quiet).rxEn = s.rxEn := rfl
@[simp] theorem State.quiet_txEn (s : State) : (s.quiet).txEn = s.txEn := rfl
@[simp] theorem State.quiet_isBcast (s : State) : (s.quiet).isBcast = s.isBcast := rfl
@[simp] theorem State.quiet_fault (s : State) : (s.quiet).fault = s.fault := rfl
@[simp] theorem State.quiet_params (s : State) : (s.quiet).params = s.params := rfl
@[simp] theorem State.quiet_resetEpoch (s : State) : (s.quiet).resetEpoch = s.resetEpoch := rfl
@[simp] theorem State.quiet_cfgOk (s : State) : (s.quiet).cfgOk = s.cfgOk := rfl
@[simp] theorem State.quiet_pending (s : State) : (s.quiet).pending = s.pending := rfl
@[simp] theorem State.quiet_out (s : State) : (s.quiet).out = {} := rfl
@[simp] theorem State.quiet_bufSize (s : State) : (s.quiet).bufSize = s.bufSize := rfl
@[simp] theorem State.quiet_owned (s : State) : (s.quiet).owned = s.owned := rfl
@[simp] theorem State.quiet_faulted (s : State) : (s.quiet).faulted = s.faulted := rfl
@[simp] theorem State.quiet_sendBusy (s : State) : (s.quiet).sendBusy = s.sendBusy := rfl
@[simp] theorem State.quiet_cell (s : State) (a : Nat) : (s.quiet).cell a = s.cell a := rfl

@[simp] theorem State.setCell_configured (s : State) (off : Nat) (v : Byte) : (s.setCell off v).configured = s.configured := rfl
@[simp] theorem State.setCell_baud (s : State) (off : Nat) (v : Byte) : (s.setCell off v).baud = s.baud := rfl
@[simp] theorem State.setCell_parity (s : State) (off : Nat) (v : Byte) : (s.setCell off v).parity = s.parity := rfl
@[simp] theorem State.setCell_t35Us (s : State) (off : Nat) (v : Byte) : (s.setCell off v).t35Us = s.t35Us := rfl
@[simp] theorem State.setCell_rcvState (s : State) (off : Nat) (v : Byte) : (s.setCell off v).rcvState = s.rcvState := rfl
@[simp] theorem State.setCell_sndState (s : State) (off : Nat) (v : Byte) : (s.setCell off v).sndState = s.sndState := rfl
@[simp] theorem State.setCell_tmrMode (s : State) (off : Nat) (v : Byte) : (s.setCell off v).tmrMode = s.tmrMode := rfl
@[simp] theorem State.setCell_tmrArmed (s : State) (off : Nat) (v : Byte) : (s.setCell off v).tmrArmed = s.tmrArmed := rfl
@[simp] theorem State.setCell_tmrThr (s : State) (off : Nat) (v : Byte) : (s.setCell off v).tmrThr = s.tmrThr := rfl
@[simp] theorem State.setCell_buf (s : State) (off : Nat) (v : Byte) : (s.setCell off v).buf = s.buf.store off v := rfl
@[simp] theorem State.setCell_rcvPos (s : State) (off : Nat) (v : Byte) : (s.setCell off v).rcvPos = s.rcvPos := rfl
@[simp] theorem State.setCell_sndPtr (s : State) (off : Nat) (v : Byte) : (s.setCell off v).sndPtr = s.sndPtr := rfl
@[simp] theorem State.setCell_sndCnt (s : State) (off : Nat) (v : Byte) : (s.setCell off v).sndCnt = s.sndCnt := rfl
@[simp] theorem State.setCell_rxEn (s : State) (off : Nat) (v : Byte) : (s.setCell off v).rxEn = s.rxEn := rfl
@[simp] theorem State.setCell_txEn (s : State) (off : Nat) (v : Byte) : (s.setCell off v).txEn = s.txEn := rfl
@[simp] theorem State.setCell_isBcast (s : State) (off : Nat) (v : Byte) : (s.setCell off v).isBcast = s.isBcast := rfl
@[simp] theorem State.setCell_fault (s : State) (off : Nat) (v : Byte) : (s.setCell off v).fault = s.fault := rfl
@[simp] theorem State.setCell_params (s : State) (off : Nat) (v : Byte) : (s.setCell off v).params = s.params := rfl
@[simp] theorem State.setCell_resetEpoch (s : State) (off : Nat) (v : Byte) : (s.setCell off v).resetEpoch = s.resetEpoch := rfl
@[simp] theorem State.setCell_cfgOk (s : State) (off : Nat) (v : Byte) : (s.setCell off v).cfgOk = s.cfgOk := rfl
@[simp] theorem State.setCell_pending (s : State) (off : Nat) (v : Byte) : (s.setCell off v).pending = s.pending := rfl
@[simp] theorem State.setCell_out (s : State) (off : Nat) (v : Byte) : (s.setCell off v).out = s.out := rfl
@[simp] theorem State.setCell_bufSize (s : State) (off : Nat) (v : Byte) : (s.setCell off v).bufSize = s.bufSize := rfl
@[simp] theorem State.setCell_owned (s : State) (off : Nat) (v : Byte) : (s.setCell off v).owned = s.owned := rfl
@[simp] theorem State.setCell_faulted (s : State) (off : Nat) (v : Byte) : (s.setCell off v).faulted = s.faulted := rfl
@[simp] theorem State.setCell_sendBusy (s : State) (off : Nat) (v : Byte) : (s.setCell off v).sendBusy = s.sendBusy := rfl

@[simp] theorem State.answer_configured (s : State) (st : Status) (d : Word) : (s.answer st d).configured = s.configured := rfl
@[simp] theorem State.answer_baud (s : State) (st : Status) (d : Word) : (s.answer st d).baud = s.baud := rfl
@[simp] theorem State.answer_parity (s : State) (st : Status) (d : Word) : (s.answer st d).parity = s.parity := rfl
@[simp] theorem State.answer_t35Us (s : State) (st : Status) (d : Word) : (s.answer st d).t35Us = s.t35Us := rfl
@[simp] theorem State.answer_rcvState (s : State) (st : Status) (d : Word) : (s.answer st d).rcvState = s.rcvState := rfl
@[simp] theorem State.answer_sndState (s : State) (st : Status) (d : Word) : (s.answer st d).sndState = s.sndState := rfl
@[simp] theorem State.answer_tmrMode (s : State) (st : Status) (d : Word) : (s.answer st d).tmrMode = s.tmrMode := rfl
@[simp] theorem State.answer_tmrArmed (s : State) (st : Status) (d : Word) : (s.answer st d).tmrArmed = s.tmrArmed := rfl
@[simp] theorem State.answer_tmrThr (s : State) (st : Status) (d : Word) : (s.answer st d).tmrThr = s.tmrThr := rfl
@[simp] theorem State.answer_buf (s : State) (st : Status) (d : Word) : (s.answer st d).buf = s.buf := rfl
@[simp] theorem State.answer_rcvPos (s : State) (st : Status) (d : Word) : (s.answer st d).rcvPos = s.rcvPos := rfl
@[simp] theorem State.answer_sndPtr (s : State) (st : Status) (d : Word) : (s.answer st d).sndPtr = s.sndPtr := rfl
@[simp] theorem State.answer_sndCnt (s : State) (st : Status) (d : Word) : (s.answer st d).sndCnt = s.sndCnt := rfl
@[simp] theorem State.answer_rxEn (s : State) (st : Status) (d : Word) : (s.answer st d).rxEn = s.rxEn := rfl
@[simp] theorem State.answer_txEn (s : State) (st : Status) (d : Word) : (s.answer st d).txEn = s.txEn := rfl
@[simp] theorem State.answer_isBcast (s : State) (st : Status) (d : Word) : (s.answer st d).isBcast = s.isBcast := rfl
@[simp] theorem State.answer_fault (s : State) (st : Status) (d : Word) : (s.answer st d).fault = s.fault := rfl
@[simp] theorem State.answer_params (s : State) (st : Status) (d : Word) : (s.answer st d).params = s.params := rfl
@[simp] theorem State.answer_resetEpoch (s : State) (st : Status) (d : Word) : (s.answer st d).resetEpoch = s.resetEpoch := rfl
@[simp] theorem State.answer_cfgOk (s : State) (st : Status) (d : Word) : (s.answer st d).cfgOk = s.cfgOk := rfl
@[simp] theorem State.answer_pending (s : State) (st : Status) (d : Word) : (s.answer st d).pending = s.pending := rfl
@[simp] theorem State.answer_out (s : State) (st : Status) (d : Word) : (s.answer st d).out = { s.out with rsp := some ⟨st, d⟩ } := rfl
@[simp] theorem State.answer_bufSize (s : State) (st : Status) (d : Word) : (s.answer st d).bufSize = s.bufSize := rfl
@[simp] theorem State.answer_owned (s : State) (st : Status) (d : Word) : (s.answer st d).owned = s.owned := rfl
@[simp] theorem State.answer_faulted (s : State) (st : Status) (d : Word) : (s.answer st d).faulted = s.faulted := rfl
@[simp] theorem State.answer_sendBusy (s : State) (st : Status) (d : Word) : (s.answer st d).sendBusy = s.sendBusy := rfl
@[simp] theorem State.answer_cell (s : State) (st : Status) (d : Word) (a : Nat) : (s.answer st d).cell a = s.cell a := rfl

@[simp] theorem State.emitTx_configured (s : State) (b : Byte) : (s.emitTx b).configured = s.configured := rfl
@[simp] theorem State.emitTx_baud (s : State) (b : Byte) : (s.emitTx b).baud = s.baud := rfl
@[simp] theorem State.emitTx_parity (s : State) (b : Byte) : (s.emitTx b).parity = s.parity := rfl
@[simp] theorem State.emitTx_t35Us (s : State) (b : Byte) : (s.emitTx b).t35Us = s.t35Us := rfl
@[simp] theorem State.emitTx_rcvState (s : State) (b : Byte) : (s.emitTx b).rcvState = s.rcvState := rfl
@[simp] theorem State.emitTx_sndState (s : State) (b : Byte) : (s.emitTx b).sndState = s.sndState := rfl
@[simp] theorem State.emitTx_tmrMode (s : State) (b : Byte) : (s.emitTx b).tmrMode = s.tmrMode := rfl
@[simp] theorem State.emitTx_tmrArmed (s : State) (b : Byte) : (s.emitTx b).tmrArmed = s.tmrArmed := rfl
@[simp] theorem State.emitTx_tmrThr (s : State) (b : Byte) : (s.emitTx b).tmrThr = s.tmrThr := rfl
@[simp] theorem State.emitTx_buf (s : State) (b : Byte) : (s.emitTx b).buf = s.buf := rfl
@[simp] theorem State.emitTx_rcvPos (s : State) (b : Byte) : (s.emitTx b).rcvPos = s.rcvPos := rfl
@[simp] theorem State.emitTx_sndPtr (s : State) (b : Byte) : (s.emitTx b).sndPtr = s.sndPtr := rfl
@[simp] theorem State.emitTx_sndCnt (s : State) (b : Byte) : (s.emitTx b).sndCnt = s.sndCnt := rfl
@[simp] theorem State.emitTx_rxEn (s : State) (b : Byte) : (s.emitTx b).rxEn = s.rxEn := rfl
@[simp] theorem State.emitTx_txEn (s : State) (b : Byte) : (s.emitTx b).txEn = s.txEn := rfl
@[simp] theorem State.emitTx_isBcast (s : State) (b : Byte) : (s.emitTx b).isBcast = s.isBcast := rfl
@[simp] theorem State.emitTx_fault (s : State) (b : Byte) : (s.emitTx b).fault = s.fault := rfl
@[simp] theorem State.emitTx_params (s : State) (b : Byte) : (s.emitTx b).params = s.params := rfl
@[simp] theorem State.emitTx_resetEpoch (s : State) (b : Byte) : (s.emitTx b).resetEpoch = s.resetEpoch := rfl
@[simp] theorem State.emitTx_cfgOk (s : State) (b : Byte) : (s.emitTx b).cfgOk = s.cfgOk := rfl
@[simp] theorem State.emitTx_pending (s : State) (b : Byte) : (s.emitTx b).pending = s.pending := rfl
@[simp] theorem State.emitTx_out (s : State) (b : Byte) : (s.emitTx b).out = { s.out with tx := some b } := rfl
@[simp] theorem State.emitTx_bufSize (s : State) (b : Byte) : (s.emitTx b).bufSize = s.bufSize := rfl
@[simp] theorem State.emitTx_owned (s : State) (b : Byte) : (s.emitTx b).owned = s.owned := rfl
@[simp] theorem State.emitTx_faulted (s : State) (b : Byte) : (s.emitTx b).faulted = s.faulted := rfl
@[simp] theorem State.emitTx_sendBusy (s : State) (b : Byte) : (s.emitTx b).sendBusy = s.sendBusy := rfl
@[simp] theorem State.emitTx_cell (s : State) (b : Byte) (a : Nat) : (s.emitTx b).cell a = s.cell a := rfl

@[simp] theorem State.emitEvent_configured (s : State) (e : Option Event) : (s.emitEvent e).configured = s.configured := rfl
@[simp] theorem State.emitEvent_baud (s : State) (e : Option Event) : (s.emitEvent e).baud = s.baud := rfl
@[simp] theorem State.emitEvent_parity (s : State) (e : Option Event) : (s.emitEvent e).parity = s.parity := rfl
@[simp] theorem State.emitEvent_t35Us (s : State) (e : Option Event) : (s.emitEvent e).t35Us = s.t35Us := rfl
@[simp] theorem State.emitEvent_rcvState (s : State) (e : Option Event) : (s.emitEvent e).rcvState = s.rcvState := rfl
@[simp] theorem State.emitEvent_sndState (s : State) (e : Option Event) : (s.emitEvent e).sndState = s.sndState := rfl
@[simp] theorem State.emitEvent_tmrMode (s : State) (e : Option Event) : (s.emitEvent e).tmrMode = s.tmrMode := rfl
@[simp] theorem State.emitEvent_tmrArmed (s : State) (e : Option Event) : (s.emitEvent e).tmrArmed = s.tmrArmed := rfl
@[simp] theorem State.emitEvent_tmrThr (s : State) (e : Option Event) : (s.emitEvent e).tmrThr = s.tmrThr := rfl
@[simp] theorem State.emitEvent_buf (s : State) (e : Option Event) : (s.emitEvent e).buf = s.buf := rfl
@[simp] theorem State.emitEvent_rcvPos (s : State) (e : Option Event) : (s.emitEvent e).rcvPos = s.rcvPos := rfl
@[simp] theorem State.emitEvent_sndPtr (s : State) (e : Option Event) : (s.emitEvent e).sndPtr = s.sndPtr := rfl
@[simp] theorem State.emitEvent_sndCnt (s : State) (e : Option Event) : (s.emitEvent e).sndCnt = s.sndCnt := rfl
@[simp] theorem State.emitEvent_rxEn (s : State) (e : Option Event) : (s.emitEvent e).rxEn = s.rxEn := rfl
@[simp] theorem State.emitEvent_txEn (s : State) (e : Option Event) : (s.emitEvent e).txEn = s.txEn := rfl
@[simp] theorem State.emitEvent_isBcast (s : State) (e : Option Event) : (s.emitEvent e).isBcast = s.isBcast := rfl
@[simp] theorem State.emitEvent_fault (s : State) (e : Option Event) : (s.emitEvent e).fault = s.fault := rfl
@[simp] theorem State.emitEvent_params (s : State) (e : Option Event) : (s.emitEvent e).params = s.params := rfl
@[simp] theorem State.emitEvent_resetEpoch (s : State) (e : Option Event) : (s.emitEvent e).resetEpoch = s.resetEpoch := rfl
@[simp] theorem State.emitEvent_cfgOk (s : State) (e : Option Event) : (s.emitEvent e).cfgOk = s.cfgOk := rfl
@[simp] theorem State.emitEvent_pending (s : State) (e : Option Event) : (s.emitEvent e).pending = s.pending := rfl
@[simp] theorem State.emitEvent_out (s : State) (e : Option Event) : (s.emitEvent e).out = { s.out with ev := e } := rfl
@[simp] theorem State.emitEvent_bufSize (s : State) (e : Option Event) : (s.emitEvent e).bufSize = s.bufSize := rfl
@[simp] theorem State.emitEvent_owned (s : State) (e : Option Event) : (s.emitEvent e).owned = s.owned := rfl
@[simp] theorem State.emitEvent_faulted (s : State) (e : Option Event) : (s.emitEvent e).faulted = s.faulted := rfl
@[simp] theorem State.emitEvent_sendBusy (s : State) (e : Option Event) : (s.emitEvent e).sendBusy = s.sendBusy := rfl
@[simp] theorem State.emitEvent_cell (s : State) (e : Option Event) (a : Nat) : (s.emitEvent e).cell a = s.cell a := rfl

@[simp] theorem State.emitConfig_configured (s : State) (r : Baud) (p : Parity) : (s.emitConfig r p).configured = s.configured := rfl
@[simp] theorem State.emitConfig_baud (s : State) (r : Baud) (p : Parity) : (s.emitConfig r p).baud = s.baud := rfl
@[simp] theorem State.emitConfig_parity (s : State) (r : Baud) (p : Parity) : (s.emitConfig r p).parity = s.parity := rfl
@[simp] theorem State.emitConfig_t35Us (s : State) (r : Baud) (p : Parity) : (s.emitConfig r p).t35Us = s.t35Us := rfl
@[simp] theorem State.emitConfig_rcvState (s : State) (r : Baud) (p : Parity) : (s.emitConfig r p).rcvState = s.rcvState := rfl
@[simp] theorem State.emitConfig_sndState (s : State) (r : Baud) (p : Parity) : (s.emitConfig r p).sndState = s.sndState := rfl
@[simp] theorem State.emitConfig_tmrMode (s : State) (r : Baud) (p : Parity) : (s.emitConfig r p).tmrMode = s.tmrMode := rfl
@[simp] theorem State.emitConfig_tmrArmed (s : State) (r : Baud) (p : Parity) : (s.emitConfig r p).tmrArmed = s.tmrArmed := rfl
@[simp] theorem State.emitConfig_tmrThr (s : State) (r : Baud) (p : Parity) : (s.emitConfig r p).tmrThr = s.tmrThr := rfl
@[simp] theorem State.emitConfig_buf (s : State) (r : Baud) (p : Parity) : (s.emitConfig r p).buf = s.buf := rfl
@[simp] theorem State.emitConfig_rcvPos (s : State) (r : Baud) (p : Parity) : (s.emitConfig r p).rcvPos = s.rcvPos := rfl
@[simp] theorem State.emitConfig_sndPtr (s : State) (r : Baud) (p : Parity) : (s.emitConfig r p).sndPtr = s.sndPtr := rfl
@[simp] theorem State.emitConfig_sndCnt (s : State) (r : Baud) (p : Parity) : (s.emitConfig r p).sndCnt = s.sndCnt := rfl
@[simp] theorem State.emitConfig_rxEn (s : State) (r : Baud) (p : Parity) : (s.emitConfig r p).rxEn = s.rxEn := rfl
@[simp] theorem State.emitConfig_txEn (s : State) (r : Baud) (p : Parity) : (s.emitConfig r p).txEn = s.txEn := rfl
@[simp] theorem State.emitConfig_isBcast (s : State) (r : Baud) (p : Parity) : (s.emitConfig r p).isBcast = s.isBcast := rfl
@[simp] theorem State.emitConfig_fault (s : State) (r : Baud) (p : Parity) : (s.emitConfig r p).fault = s.fault := rfl
@[simp] theorem State.emitConfig_params (s : State) (r : Baud) (p : Parity) : (s.emitConfig r p).params = s.params := rfl
@[simp] theorem State.emitConfig_resetEpoch (s : State) (r : Baud) (p : Parity) : (s.emitConfig r p).resetEpoch = s.resetEpoch := rfl
@[simp] theorem State.emitConfig_cfgOk (s : State) (r : Baud) (p : Parity) : (s.emitConfig r p).cfgOk = s.cfgOk := rfl
@[simp] theorem State.emitConfig_pending (s : State) (r : Baud) (p : Parity) : (s.emitConfig r p).pending = s.pending := rfl
@[simp] theorem State.emitConfig_out (s : State) (r : Baud) (p : Parity) : (s.emitConfig r p).out = { s.out with cfg := some ⟨r, p, 1, 8⟩ } := rfl
@[simp] theorem State.emitConfig_bufSize (s : State) (r : Baud) (p : Parity) : (s.emitConfig r p).bufSize = s.bufSize := rfl
@[simp] theorem State.emitConfig_owned (s : State) (r : Baud) (p : Parity) : (s.emitConfig r p).owned = s.owned := rfl
@[simp] theorem State.emitConfig_faulted (s : State) (r : Baud) (p : Parity) : (s.emitConfig r p).faulted = s.faulted := rfl
@[simp] theorem State.emitConfig_sendBusy (s : State) (r : Baud) (p : Parity) : (s.emitConfig r p).sendBusy = s.sendBusy := rfl
@[simp] theorem State.emitConfig_cell (s : State) (r : Baud) (p : Parity) (a : Nat) : (s.emitConfig r p).cell a = s.cell a := rfl

@[simp] theorem State.arm_configured (s : State) (m : TmrMode) (thr : Word) : (s.arm m thr).configured = s.configured := rfl
@[simp] theorem State.arm_baud (s : State) (m : TmrMode) (thr : Word) : (s.arm m thr).baud = s.baud := rfl
@[simp] theorem State.arm_parity (s : State) (m : TmrMode) (thr : Word) : (s.arm m thr).parity = s.parity := rfl
@[simp] theorem State.arm_t35Us (s : State) (m : TmrMode) (thr : Word) : (s.arm m thr).t35Us = s.t35Us := rfl
@[simp] theorem State.arm_rcvState (s : State) (m : TmrMode) (thr : Word) : (s.arm m thr).rcvState = s.rcvState := rfl
@[simp] theorem State.arm_sndState (s : State) (m : TmrMode) (thr : Word) : (s.arm m thr).sndState = s.sndState := rfl
@[simp] theorem State.arm_tmrMode (s : State) (m : TmrMode) (thr : Word) : (s.arm m thr).tmrMode = m := rfl
@[simp] theorem State.arm_tmrArmed (s : State) (m : TmrMode) (thr : Word) : (s.arm m thr).tmrArmed = true := rfl
@[simp] theorem State.arm_tmrThr (s : State) (m : TmrMode) (thr : Word) : (s.arm m thr).tmrThr = thr := rfl
@[simp] theorem State.arm_buf (s : State) (m : TmrMode) (thr : Word) : (s.arm m thr).buf = s.buf := rfl
@[simp] theorem State.arm_rcvPos (s : State) (m : TmrMode) (thr : Word) : (s.arm m thr).rcvPos = s.rcvPos := rfl
@[simp] theorem State.arm_sndPtr (s : State) (m : TmrMode) (thr : Word) : (s.arm m thr).sndPtr = s.sndPtr := rfl
@[simp] theorem State.arm_sndCnt (s : State) (m : TmrMode) (thr : Word) : (s.arm m thr).sndCnt = s.sndCnt := rfl
@[simp] theorem State.arm_rxEn (s : State) (m : TmrMode) (thr : Word) : (s.arm m thr).rxEn = s.rxEn := rfl
@[simp] theorem State.arm_txEn (s : State) (m : TmrMode) (thr : Word) : (s.arm m thr).txEn = s.txEn := rfl
@[simp] theorem State.arm_isBcast (s : State) (m : TmrMode) (thr : Word) : (s.arm m thr).isBcast = s.isBcast := rfl
@[simp] theorem State.arm_fault (s : State) (m : TmrMode) (thr : Word) : (s.arm m thr).fault = s.fault := rfl
@[simp] theorem State.arm_params (s : State) (m : TmrMode) (thr : Word) : (s.arm m thr).params = s.params := rfl
@[simp] theorem State.arm_resetEpoch (s : State) (m : TmrMode) (thr : Word) : (s.arm m thr).resetEpoch = s.resetEpoch := rfl
@[simp] theorem State.arm_cfgOk (s : State) (m : TmrMode) (thr : Word) : (s.arm m thr).cfgOk = s.cfgOk := rfl
@[simp] theorem State.arm_pending (s : State) (m : TmrMode) (thr : Word) : (s.arm m thr).pending = s.pending := rfl
@[simp] theorem State.arm_out (s : State) (m : TmrMode) (thr : Word) : (s.arm m thr).out = { s.out with tmr := some (.arm m thr) } := rfl
@[simp] theorem State.arm_bufSize (s : State) (m : TmrMode) (thr : Word) : (s.arm m thr).bufSize = s.bufSize := rfl
@[simp] theorem State.arm_owned (s : State) (m : TmrMode) (thr : Word) : (s.arm m thr).owned = s.owned := rfl
@[simp] theorem State.arm_faulted (s : State) (m : TmrMode) (thr : Word) : (s.arm m thr).faulted = s.faulted := rfl
@[simp] theorem State.arm_sendBusy (s : State) (m : TmrMode) (thr : Word) : (s.arm m thr).sendBusy = s.sendBusy := rfl
@[simp] theorem State.arm_cell (s : State) (m : TmrMode) (thr : Word) (a : Nat) : (s.arm m thr).cell a = s.cell a := rfl

@[simp] theorem State.disarm_configured (s : State) : (s.disarm).configured = s.configured := rfl
@[simp] theorem State.disarm_baud (s : State) : (s.disarm).baud = s.baud := rfl
@[simp] theorem State.disarm_parity (s : State) : (s.disarm).parity = s.parity := rfl
@[simp] theorem State.disarm_t35Us (s : State) : (s.disarm).t35Us = s.t35Us := rfl
@[simp] theorem State.disarm_rcvState (s : State) : (s.disarm).rcvState = s.rcvState := rfl
@[simp] theorem State.disarm_sndState (s : State) : (s.disarm).sndState = s.sndState := rfl
@[simp] theorem State.disarm_tmrMode (s : State) : (s.disarm).tmrMode = s.tmrMode := rfl
@[simp] theorem State.disarm_tmrArmed (s : State) : (s.disarm).tmrArmed = false := rfl
@[simp] theorem State.disarm_tmrThr (s : State) : (s.disarm).tmrThr = s.tmrThr := rfl
@[simp] theorem State.disarm_buf (s : State) : (s.disarm).buf = s.buf := rfl
@[simp] theorem State.disarm_rcvPos (s : State) : (s.disarm).rcvPos = s.rcvPos := rfl
@[simp] theorem State.disarm_sndPtr (s : State) : (s.disarm).sndPtr = s.sndPtr := rfl
@[simp] theorem State.disarm_sndCnt (s : State) : (s.disarm).sndCnt = s.sndCnt := rfl
@[simp] theorem State.disarm_rxEn (s : State) : (s.disarm).rxEn = s.rxEn := rfl
@[simp] theorem State.disarm_txEn (s : State) : (s.disarm).txEn = s.txEn := rfl
@[simp] theorem State.disarm_isBcast (s : State) : (s.disarm).isBcast = s.isBcast := rfl
@[simp] theorem State.disarm_fault (s : State) : (s.disarm).fault = s.fault := rfl
@[simp] theorem State.disarm_params (s : State) : (s.disarm).params = s.params := rfl
@[simp] theorem State.disarm_resetEpoch (s : State) : (s.disarm).resetEpoch = s.resetEpoch := rfl
@[simp] theorem State.disarm_cfgOk (s : State) : (s.disarm).cfgOk = s.cfgOk := rfl
@[simp] theorem State.disarm_pending (s : State) : (s.disarm).pending = s.pending := rfl
@[simp] theorem State.disarm_out (s : State) : (s.disarm).out = { s.out with tmr := some .disarm } := rfl
@[simp] theorem State.disarm_bufSize (s : State) : (s.disarm).bufSize = s.bufSize := rfl
@[simp] theorem State.disarm_owned (s : State) : (s.disarm).owned = s.owned := rfl
@[simp] theorem State.disarm_faulted (s : State) : (s.disarm).faulted = s.faulted := rfl
@[simp] theorem State.disarm_sendBusy (s : State) : (s.disarm).sendBusy = s.sendBusy := rfl
@[simp] theorem State.disarm_cell (s : State) (a : Nat) : (s.disarm).cell a = s.cell a := rfl

@[simp] theorem State.raiseAssert_configured (s : State) (c : AssertLatch) : (s.raiseAssert c).configured = s.configured := rfl
@[simp] theorem State.raiseAssert_baud (s : State) (c : AssertLatch) : (s.raiseAssert c).baud = s.baud := rfl
@[simp] theorem State.raiseAssert_parity (s : State) (c : AssertLatch) : (s.raiseAssert c).parity = s.parity := rfl
@[simp] theorem State.raiseAssert_t35Us (s : State) (c : AssertLatch) : (s.raiseAssert c).t35Us = s.t35Us := rfl
@[simp] theorem State.raiseAssert_rcvState (s : State) (c : AssertLatch) : (s.raiseAssert c).rcvState = s.rcvState := rfl
@[simp] theorem State.raiseAssert_sndState (s : State) (c : AssertLatch) : (s.raiseAssert c).sndState = s.sndState := rfl
@[simp] theorem State.raiseAssert_tmrMode (s : State) (c : AssertLatch) : (s.raiseAssert c).tmrMode = s.tmrMode := rfl
@[simp] theorem State.raiseAssert_tmrArmed (s : State) (c : AssertLatch) : (s.raiseAssert c).tmrArmed = s.tmrArmed := rfl
@[simp] theorem State.raiseAssert_tmrThr (s : State) (c : AssertLatch) : (s.raiseAssert c).tmrThr = s.tmrThr := rfl
@[simp] theorem State.raiseAssert_buf (s : State) (c : AssertLatch) : (s.raiseAssert c).buf = s.buf := rfl
@[simp] theorem State.raiseAssert_rcvPos (s : State) (c : AssertLatch) : (s.raiseAssert c).rcvPos = s.rcvPos := rfl
@[simp] theorem State.raiseAssert_sndPtr (s : State) (c : AssertLatch) : (s.raiseAssert c).sndPtr = s.sndPtr := rfl
@[simp] theorem State.raiseAssert_sndCnt (s : State) (c : AssertLatch) : (s.raiseAssert c).sndCnt = s.sndCnt := rfl
@[simp] theorem State.raiseAssert_rxEn (s : State) (c : AssertLatch) : (s.raiseAssert c).rxEn = s.rxEn := rfl
@[simp] theorem State.raiseAssert_txEn (s : State) (c : AssertLatch) : (s.raiseAssert c).txEn = s.txEn := rfl
@[simp] theorem State.raiseAssert_isBcast (s : State) (c : AssertLatch) : (s.raiseAssert c).isBcast = s.isBcast := rfl
@[simp] theorem State.raiseAssert_fault (s : State) (c : AssertLatch) : (s.raiseAssert c).fault = c := rfl
@[simp] theorem State.raiseAssert_params (s : State) (c : AssertLatch) : (s.raiseAssert c).params = s.params := rfl
@[simp] theorem State.raiseAssert_resetEpoch (s : State) (c : AssertLatch) : (s.raiseAssert c).resetEpoch = s.resetEpoch := rfl
@[simp] theorem State.raiseAssert_cfgOk (s : State) (c : AssertLatch) : (s.raiseAssert c).cfgOk = s.cfgOk := rfl
@[simp] theorem State.raiseAssert_pending (s : State) (c : AssertLatch) : (s.raiseAssert c).pending = s.pending := rfl
@[simp] theorem State.raiseAssert_out (s : State) (c : AssertLatch) : (s.raiseAssert c).out = {} := rfl
@[simp] theorem State.raiseAssert_bufSize (s : State) (c : AssertLatch) : (s.raiseAssert c).bufSize = s.bufSize := rfl
@[simp] theorem State.raiseAssert_owned (s : State) (c : AssertLatch) : (s.raiseAssert c).owned = s.owned := rfl
@[simp] theorem State.raiseAssert_sendBusy (s : State) (c : AssertLatch) : (s.raiseAssert c).sendBusy = s.sendBusy := rfl
@[simp] theorem State.raiseAssert_cell (s : State) (c : AssertLatch) (a : Nat) : (s.raiseAssert c).cell a = s.cell a := rfl

@[simp] theorem State.configure_configured (s : State) (r : Baud) (p : Parity) : (s.configure r p).configured = true := rfl
@[simp] theorem State.configure_baud (s : State) (r : Baud) (p : Parity) : (s.configure r p).baud = r := rfl
@[simp] theorem State.configure_parity (s : State) (r : Baud) (p : Parity) : (s.configure r p).parity = p := rfl
@[simp] theorem State.configure_t35Us (s : State) (r : Baud) (p : Parity) : (s.configure r p).t35Us = t35Of r := rfl
@[simp] theorem State.configure_rcvState (s : State) (r : Baud) (p : Parity) : (s.configure r p).rcvState = s.rcvState := rfl
@[simp] theorem State.configure_sndState (s : State) (r : Baud) (p : Parity) : (s.configure r p).sndState = s.sndState := rfl
@[simp] theorem State.configure_tmrMode (s : State) (r : Baud) (p : Parity) : (s.configure r p).tmrMode = s.tmrMode := rfl
@[simp] theorem State.configure_tmrArmed (s : State) (r : Baud) (p : Parity) : (s.configure r p).tmrArmed = s.tmrArmed := rfl
@[simp] theorem State.configure_tmrThr (s : State) (r : Baud) (p : Parity) : (s.configure r p).tmrThr = s.tmrThr := rfl
@[simp] theorem State.configure_buf (s : State) (r : Baud) (p : Parity) : (s.configure r p).buf = s.buf := rfl
@[simp] theorem State.configure_rcvPos (s : State) (r : Baud) (p : Parity) : (s.configure r p).rcvPos = s.rcvPos := rfl
@[simp] theorem State.configure_sndPtr (s : State) (r : Baud) (p : Parity) : (s.configure r p).sndPtr = s.sndPtr := rfl
@[simp] theorem State.configure_sndCnt (s : State) (r : Baud) (p : Parity) : (s.configure r p).sndCnt = s.sndCnt := rfl
@[simp] theorem State.configure_rxEn (s : State) (r : Baud) (p : Parity) : (s.configure r p).rxEn = s.rxEn := rfl
@[simp] theorem State.configure_txEn (s : State) (r : Baud) (p : Parity) : (s.configure r p).txEn = s.txEn := rfl
@[simp] theorem State.configure_isBcast (s : State) (r : Baud) (p : Parity) : (s.configure r p).isBcast = s.isBcast := rfl
@[simp] theorem State.configure_fault (s : State) (r : Baud) (p : Parity) : (s.configure r p).fault = s.fault := rfl
@[simp] theorem State.configure_params (s : State) (r : Baud) (p : Parity) : (s.configure r p).params = s.params := rfl
@[simp] theorem State.configure_resetEpoch (s : State) (r : Baud) (p : Parity) : (s.configure r p).resetEpoch = s.resetEpoch := rfl
@[simp] theorem State.configure_cfgOk (s : State) (r : Baud) (p : Parity) : (s.configure r p).cfgOk = s.cfgOk := rfl
@[simp] theorem State.configure_pending (s : State) (r : Baud) (p : Parity) : (s.configure r p).pending = s.pending := rfl
@[simp] theorem State.configure_out (s : State) (r : Baud) (p : Parity) : (s.configure r p).out = s.out := rfl
@[simp] theorem State.configure_bufSize (s : State) (r : Baud) (p : Parity) : (s.configure r p).bufSize = s.bufSize := rfl
@[simp] theorem State.configure_owned (s : State) (r : Baud) (p : Parity) : (s.configure r p).owned = s.owned := rfl
@[simp] theorem State.configure_faulted (s : State) (r : Baud) (p : Parity) : (s.configure r p).faulted = s.faulted := rfl
@[simp] theorem State.configure_sendBusy (s : State) (r : Baud) (p : Parity) : (s.configure r p).sendBusy = s.sendBusy := rfl
@[simp] theorem State.configure_cell (s : State) (r : Baud) (p : Parity) (a : Nat) : (s.configure r p).cell a = s.cell a := rfl

@[simp] theorem State.startSending_configured (s : State) (len : Pos) : (s.startSending len).configured = s.configured := rfl
@[simp] theorem State.startSending_baud (s : State) (len : Pos) : (s.startSending len).baud = s.baud := rfl
@[simp] theorem State.startSending_parity (s : State) (len : Pos) : (s.startSending len).parity = s.parity := rfl
@[simp] theorem State.startSending_t35Us (s : State) (len : Pos) : (s.startSending len).t35Us = s.t35Us := rfl
@[simp] theorem State.startSending_rcvState (s : State) (len : Pos) : (s.startSending len).rcvState = s.rcvState := rfl
@[simp] theorem State.startSending_sndState (s : State) (len : Pos) : (s.startSending len).sndState = .transmitting := rfl
@[simp] theorem State.startSending_tmrMode (s : State) (len : Pos) : (s.startSending len).tmrMode = s.tmrMode := rfl
@[simp] theorem State.startSending_tmrArmed (s : State) (len : Pos) : (s.startSending len).tmrArmed = s.tmrArmed := rfl
@[simp] theorem State.startSending_tmrThr (s : State) (len : Pos) : (s.startSending len).tmrThr = s.tmrThr := rfl
@[simp] theorem State.startSending_buf (s : State) (len : Pos) : (s.startSending len).buf = s.buf := rfl
@[simp] theorem State.startSending_rcvPos (s : State) (len : Pos) : (s.startSending len).rcvPos = s.rcvPos := rfl
@[simp] theorem State.startSending_sndPtr (s : State) (len : Pos) : (s.startSending len).sndPtr = 0 := rfl
@[simp] theorem State.startSending_sndCnt (s : State) (len : Pos) : (s.startSending len).sndCnt = BitVec.ofNat 12 (len.toNat + 3) := rfl
@[simp] theorem State.startSending_rxEn (s : State) (len : Pos) : (s.startSending len).rxEn = false := rfl
@[simp] theorem State.startSending_txEn (s : State) (len : Pos) : (s.startSending len).txEn = true := rfl
@[simp] theorem State.startSending_isBcast (s : State) (len : Pos) : (s.startSending len).isBcast = s.isBcast := rfl
@[simp] theorem State.startSending_fault (s : State) (len : Pos) : (s.startSending len).fault = s.fault := rfl
@[simp] theorem State.startSending_params (s : State) (len : Pos) : (s.startSending len).params = s.params := rfl
@[simp] theorem State.startSending_resetEpoch (s : State) (len : Pos) : (s.startSending len).resetEpoch = s.resetEpoch := rfl
@[simp] theorem State.startSending_cfgOk (s : State) (len : Pos) : (s.startSending len).cfgOk = s.cfgOk := rfl
@[simp] theorem State.startSending_pending (s : State) (len : Pos) : (s.startSending len).pending = s.pending := rfl
@[simp] theorem State.startSending_out (s : State) (len : Pos) : (s.startSending len).out = s.out := rfl
@[simp] theorem State.startSending_bufSize (s : State) (len : Pos) : (s.startSending len).bufSize = s.bufSize := rfl
@[simp] theorem State.startSending_faulted (s : State) (len : Pos) : (s.startSending len).faulted = s.faulted := rfl
@[simp] theorem State.startSending_cell (s : State) (len : Pos) (a : Nat) : (s.startSending len).cell a = s.cell a := rfl

@[simp] theorem State.applyReset_configured (s : State) : s.applyReset.configured = false := rfl
@[simp] theorem State.applyReset_baud (s : State) : s.applyReset.baud = 0 := rfl
@[simp] theorem State.applyReset_parity (s : State) : s.applyReset.parity = .none := rfl
@[simp] theorem State.applyReset_t35Us (s : State) : s.applyReset.t35Us = 0 := rfl
@[simp] theorem State.applyReset_rcvState (s : State) : s.applyReset.rcvState = .init := rfl
@[simp] theorem State.applyReset_sndState (s : State) : s.applyReset.sndState = .idle := rfl
@[simp] theorem State.applyReset_tmrMode (s : State) : s.applyReset.tmrMode = .interFrameDelay := rfl
@[simp] theorem State.applyReset_tmrArmed (s : State) : s.applyReset.tmrArmed = false := rfl
@[simp] theorem State.applyReset_tmrThr (s : State) : s.applyReset.tmrThr = 0 := rfl
@[simp] theorem State.applyReset_buf (s : State) : s.applyReset.buf = [] := rfl
@[simp] theorem State.applyReset_rcvPos (s : State) : s.applyReset.rcvPos = 0 := rfl
@[simp] theorem State.applyReset_sndPtr (s : State) : s.applyReset.sndPtr = 0 := rfl
@[simp] theorem State.applyReset_sndCnt (s : State) : s.applyReset.sndCnt = 0 := rfl
@[simp] theorem State.applyReset_rxEn (s : State) : s.applyReset.rxEn = false := rfl
@[simp] theorem State.applyReset_txEn (s : State) : s.applyReset.txEn = false := rfl
@[simp] theorem State.applyReset_isBcast (s : State) : s.applyReset.isBcast = false := rfl
@[simp] theorem State.applyReset_fault (s : State) : s.applyReset.fault = .clear := rfl
@[simp] theorem State.applyReset_params (s : State) : s.applyReset.params = s.params := rfl
@[simp] theorem State.applyReset_resetEpoch (s : State) : s.applyReset.resetEpoch = s.resetEpoch + 1 := rfl
@[simp] theorem State.applyReset_cfgOk (s : State) : s.applyReset.cfgOk = s.cfgOk := rfl
@[simp] theorem State.applyReset_pending (s : State) : s.applyReset.pending = s.pending := rfl
@[simp] theorem State.applyReset_out (s : State) : s.applyReset.out = { tmr := some .disarm } := rfl
@[simp] theorem State.applyReset_bufSize (s : State) : s.applyReset.bufSize = s.bufSize := rfl

end Sys2Proof.Machine
end

