-- ==== Sys2Proof/Laws/Memory.lean ====
section
/-! SUPPORT. The laws of the frame buffer: read after write, every other cell left alone, and the canonical form kept. -/

namespace Sys2Proof.Machine

@[simp] theorem Memory.lookup_nil (a : Nat) : Memory.lookup [] a = none := rfl

theorem Memory.lookup_none_of_lt (m : Memory) (a : Nat) (h : ∀ c ∈ m, a < c.1) : m.lookup a = none := by
  induction m with
  | nil => rfl
  | cons c m ih =>
    have hc : a < c.1 := h c (by simp)
    simp only [Memory.lookup, if_neg (Nat.ne_of_lt hc)]
    exact ih fun d hd => h d (by simp [hd])

@[simp] theorem Memory.lookup_store_same (m : Memory) (a : Nat) (v : Byte) : (m.store a v).lookup a = some v := by
  induction m with
  | nil => simp [Memory.store, Memory.lookup]
  | cons c m ih =>
    simp only [Memory.store]
    split
    · simp [Memory.lookup]
    · split
      · simp [Memory.lookup]
      · simp_all [Memory.lookup]

@[simp] theorem Memory.lookup_store_ne (m : Memory) (a k : Nat) (v : Byte) (h : k ≠ a) :
    (m.store a v).lookup k = m.lookup k := by
  induction m with
  | nil => simp [Memory.store, Memory.lookup, h]
  | cons c m ih =>
    simp only [Memory.store]
    split
    · simp [Memory.lookup, h]
    · split
      · simp_all [Memory.lookup]
      · simp [Memory.lookup, ih]

/-- Which cells a store leaves listed. -/
theorem Memory.mem_store (m : Memory) (a : Nat) (v : Byte) (c : Host.Cell) (h : c ∈ m.store a v) :
    c = (a, v) ∨ c ∈ m := by
  induction m with
  | nil => simpa [Memory.store] using h
  | cons d m ih =>
    simp only [Memory.store] at h
    split at h
    · simpa using h
    · split at h
      · simp only [List.mem_cons] at h ⊢; tauto
      · simp only [List.mem_cons] at h ⊢; tauto

/-- A store keeps the canonical form. -/
theorem Memory.store_wf (m : Memory) (a : Nat) (v : Byte) (h : m.wf) : (m.store a v).wf := by
  induction m with
  | nil => simp [Memory.store]
  | cons d m ih =>
    obtain ⟨hd, hm⟩ := List.pairwise_cons.mp h
    simp only [Memory.store]
    split
    next hlt =>
      refine List.pairwise_cons.mpr ⟨fun c hc => ?_, h⟩
      rcases List.mem_cons.mp hc with rfl | hc
      · exact hlt
      · exact Nat.lt_trans hlt (hd c hc)
    next hge =>
      split
      next heq => exact List.pairwise_cons.mpr ⟨fun c hc => by simpa [heq] using hd c hc, hm⟩
      next hne =>
        refine List.pairwise_cons.mpr ⟨fun c hc => ?_, ih hm⟩
        rcases Memory.mem_store m a v c hc with rfl | hc
        · simp only; omega
        · exact hd c hc

theorem State.cell_setCell (s : State) (off a : Nat) (v : Byte) :
    (s.setCell off v).cell a = if a = off then v else s.cell a := by
  by_cases h : a = off <;> simp [State.cell, h]

@[simp] theorem State.cell_setCell_same (s : State) (off : Nat) (v : Byte) : (s.setCell off v).cell off = v := by
  simp [State.cell_setCell]

@[simp] theorem State.cell_setCell_ne (s : State) (off a : Nat) (v : Byte) (h : a ≠ off) :
    (s.setCell off v).cell a = s.cell a := by
  simp [State.cell_setCell, h]

@[simp] theorem State.memRead_zero (s : State) (off : Nat) : s.memRead off 0 = [] := rfl

theorem State.memRead_succ (s : State) (off n : Nat) :
    s.memRead off (n + 1) = s.cell off :: s.memRead (off + 1) n := rfl

@[simp] theorem State.length_memRead (s : State) (off n : Nat) : (s.memRead off n).length = n := by
  induction n generalizing off with
  | zero => rfl
  | succ n ih => simp [State.memRead_succ, ih]

/-- `MemRead` depends on the cells it names only (R10). -/
theorem State.memRead_congr (s t : State) (off n : Nat) (h : ∀ k, off ≤ k → k < off + n → s.cell k = t.cell k) :
    s.memRead off n = t.memRead off n := by
  induction n generalizing off with
  | zero => rfl
  | succ n ih =>
    rw [State.memRead_succ, State.memRead_succ, h off (by omega) (by omega),
      ih (off + 1) fun k h1 h2 => h k (by omega) (by omega)]

theorem State.memRead_of_buf (s t : State) (off n : Nat) (hb : s.buf = t.buf) (he : s.resetEpoch = t.resetEpoch) :
    s.memRead off n = t.memRead off n :=
  State.memRead_congr s t off n fun k _ _ => by simp [State.cell, hb, he]

theorem State.memRead_add (s : State) (off m n : Nat) :
    s.memRead off (m + n) = s.memRead off m ++ s.memRead (off + m) n := by
  induction m generalizing off with
  | zero => simp
  | succ m ih =>
    rw [Nat.add_right_comm, State.memRead_succ, State.memRead_succ, ih (off + 1)]
    simp [Nat.add_assoc, Nat.add_comm 1 m]

@[simp] theorem State.memRead_quiet (s : State) (off n : Nat) : s.quiet.memRead off n = s.memRead off n :=
  State.memRead_of_buf _ _ _ _ rfl rfl

@[simp] theorem State.memRead_answer (s : State) (st : Status) (d : Word) (off n : Nat) :
    (s.answer st d).memRead off n = s.memRead off n :=
  State.memRead_of_buf _ _ _ _ rfl rfl

/-- `MemWrite` writes the buffer and nothing else (R10). -/
theorem State.memWrite_eq (s : State) (off : Nat) (vs : List Byte) :
    s.memWrite off vs = { s with buf := (s.memWrite off vs).buf } := by
  induction vs generalizing s off with
  | nil => rfl
  | cons v vs ih =>
    simp only [State.memWrite]
    rw [ih (s.setCell off v) (off + 1)]
    simp [State.setCell]

/-- What each cell holds after a `MemWrite` (R10). -/
theorem State.cell_memWrite (s : State) (off a : Nat) (vs : List Byte) :
    (s.memWrite off vs).cell a =
      if h : off ≤ a ∧ a - off < vs.length then vs[a - off]'h.2 else s.cell a := by
  induction vs generalizing s off with
  | nil => simp [State.memWrite]
  | cons v vs ih =>
    rw [State.memWrite, ih]
    by_cases h1 : off = a
    · subst h1; simp
    · by_cases h2 : off ≤ a
      · have h3 : a - off = (a - (off + 1)) + 1 := by omega
        have h4 : off + 1 ≤ a := by omega
        simp only [h2, h4, h3, List.length_cons, Nat.add_lt_add_iff_right, List.getElem_cons_succ,
          State.cell_setCell_ne s off a v (Ne.symm h1), true_and]
      · have h4 : ¬ off + 1 ≤ a := by omega
        simp [h2, h4, State.cell_setCell_ne s off a v (Ne.symm h1)]

theorem State.cell_memWrite_outside (s : State) (off a : Nat) (vs : List Byte) (h : a < off ∨ off + vs.length ≤ a) :
    (s.memWrite off vs).cell a = s.cell a := by
  rw [State.cell_memWrite, dif_neg (by omega)]

/-- A `MemWrite` keeps the canonical form. -/
theorem State.memWrite_wf (s : State) (off : Nat) (vs : List Byte) (h : s.buf.wf) : (s.memWrite off vs).buf.wf := by
  induction vs generalizing s off with
  | nil => exact h
  | cons v vs ih => exact ih _ _ (Memory.store_wf _ _ _ h)

theorem State.memWrite_inside (s : State) (off n : Nat) (vs : List Byte) (h : ∀ c ∈ s.buf, c.1 < n)
    (hv : off + vs.length ≤ n) : ∀ c ∈ (s.memWrite off vs).buf, c.1 < n := by
  induction vs generalizing s off with
  | nil => exact h
  | cons v vs ih =>
    simp only [List.length_cons] at hv
    refine ih (s.setCell off v) (off + 1) (fun c hc => ?_) (by omega)
    rcases Memory.mem_store _ _ _ _ hc with rfl | hc
    · simp only; omega
    · exact h c hc

end Sys2Proof.Machine
end

