-- ==== Sys2Proof/Laws/Exec.lean ====
section
/-! SUPPORT. One lemma per shared operation and per meaning that says everything it can do when it answers a next state; proofs cite these and do not unfold the meanings again. -/

namespace Sys2Proof.Machine

@[simp] theorem guarded_nil (s : State) (k : State → Result) : guarded [] s k = k s.quiet := rfl

@[simp] theorem guarded_cons (b : Bool) (st : Status) (cs : List (Bool × Status)) (s : State) (k : State → Result) :
    guarded ((b, st) :: cs) s k = if b then reply st 0 s else guarded cs s k := rfl

/-- What a list of checks can do: refuse with a status that is not `Ok`, or pass every check and run the effect. -/
theorem guarded_cases {cs : List (Bool × Status)} {s t : State} {k : State → Result}
    (hok : ∀ c ∈ cs, c.2 ≠ .ok) (h : guarded cs s k = .next t) :
    (∃ c ∈ cs, c.1 = true ∧ c.2 ≠ .ok ∧ t = s.quiet.answer c.2 0) ∨ ((∀ c ∈ cs, c.1 = false) ∧ k s.quiet = .next t) := by
  induction cs with
  | nil => exact .inr ⟨by simp, h⟩
  | cons c cs ih =>
    obtain ⟨b, st⟩ := c
    cases b with
    | true =>
      simp only [guarded_cons, if_true, reply, Host.Outcome.next.injEq] at h
      exact .inl ⟨_, List.mem_cons_self, rfl, hok _ List.mem_cons_self, h.symm⟩
    | false =>
      simp only [guarded_cons, Bool.false_eq_true, if_false] at h
      rcases ih (fun c hc => hok c (List.mem_cons_of_mem _ hc)) h with ⟨c, hc, h1⟩ | ⟨hall, hk⟩
      · exact .inl ⟨c, List.mem_cons_of_mem _ hc, h1⟩
      · refine .inr ⟨fun c hc => ?_, hk⟩
        rcases List.mem_cons.mp hc with rfl | hc
        · rfl
        · exact hall c hc

theorem State.faulted_iff (s : State) : s.faulted = true ↔ s.fault ≠ .clear := by simp [State.faulted]

theorem State.faulted_eq_false (s : State) : s.faulted = false ↔ s.fault = .clear := by simp [State.faulted]

theorem State.owned_eq_false (s : State) :
    s.owned = false ↔ s.rcvState ≠ .receiving ∧ s.sndState ≠ .transmitting := by
  simp [State.owned]

theorem State.sendBusy_eq_false (s : State) : s.sendBusy = false ↔ s.rcvState = .idle ∧ s.sndState = .idle := by
  simp [State.sendBusy]

/-- A stimulus does nothing while Faulted, else its effect (R236). -/
theorem unlessFaulted_cases {s t : State} {k : State → Result} (h : unlessFaulted s k = .next t) :
    (s.fault ≠ .clear ∧ t = s.quiet) ∨ (s.fault = .clear ∧ k s.quiet = .next t) := by
  unfold unlessFaulted at h
  by_cases hf : s.fault = .clear
  · exact .inr ⟨hf, by simpa [hf] using h⟩
  · have ht : s.quiet = t := by simpa [hf] using h
    exact .inl ⟨hf, ht.symm⟩

/-- A refusal: the step that answers a status other than `Ok` and changes nothing (R230). -/
def Refused (s t : State) : Prop := ∃ st, st ≠ .ok ∧ t = s.quiet.answer st 0

theorem execInit_cases {r : Baud} {p : BitVec 2} {s t : State} (h : execInit r p s = .next t) :
    Refused s t ∨
    (s.fault = .clear ∧ r ≠ 0#24 ∧ ∃ q, Parity.ofCode p = some q ∧
      ((s.cfgOk = true ∧ t = ((s.quiet.emitConfig r q).configure r q).answer .ok 0) ∨
       (s.cfgOk = false ∧ t = (s.quiet.emitConfig r q).answer .portError 0))) := by
  rcases guarded_cases (by simp) h with ⟨c, -, -, hne, rfl⟩ | ⟨hc, hk⟩
  · exact .inl ⟨_, hne, rfl⟩
  · have hf := hc _ (List.mem_cons_self)
    have ho := hc _ (List.mem_cons_of_mem _ List.mem_cons_self)
    simp only [State.faulted_eq_false] at hf
    simp only [badInitOperands, Bool.or_eq_false_iff, beq_eq_false_iff_ne] at ho
    split at hk
    next q hq =>
      refine .inr ⟨hf, ho.1, q, hq, ?_⟩
      by_cases hw : s.cfgOk = true
      · exact .inl ⟨hw, by simpa [initWith, hw] using hk.symm⟩
      · exact .inr ⟨by simpa using hw, by simpa [initWith, hw] using hk.symm⟩
    next => exact .inl ⟨.invalidArg, by simp, by simpa [reply, State.quiet] using hk.symm⟩

theorem execStart_cases {s t : State} (h : execStart s = .next t) :
    Refused s t ∨
    (s.fault = .clear ∧ s.configured = true ∧
      t = (({ s.quiet with rcvState := .init, rxEn := true, txEn := false }).arm .interFrameDelay s.t35Us).answer .ok 0) := by
  rcases guarded_cases (by simp) h with ⟨c, -, -, hne, rfl⟩ | ⟨hc, hk⟩
  · exact .inl ⟨_, hne, rfl⟩
  · have hf := hc _ (List.mem_cons_self)
    have ho := hc _ (List.mem_cons_of_mem _ List.mem_cons_self)
    exact .inr ⟨(s.faulted_eq_false).mp hf, by simpa using ho, (Host.Outcome.next.inj hk).symm⟩

theorem execStop_cases {s t : State} (h : execStop s = .next t) :
    Refused s t ∨
    (s.fault = .clear ∧ s.configured = true ∧
      t = (({ s.quiet with rxEn := false, txEn := false }).disarm).answer .ok 0) := by
  rcases guarded_cases (by simp) h with ⟨c, -, -, hne, rfl⟩ | ⟨hc, hk⟩
  · exact .inl ⟨_, hne, rfl⟩
  · have hf := hc _ (List.mem_cons_self)
    have ho := hc _ (List.mem_cons_of_mem _ List.mem_cons_self)
    exact .inr ⟨(s.faulted_eq_false).mp hf, by simpa using ho, (Host.Outcome.next.inj hk).symm⟩

theorem execRdReg_cases {i : BitVec 4} {s t : State} (h : execRdReg i s = .next t) :
    Refused s t ∨ ∃ r, StatusReg.ofIdx i = some r ∧ t = s.quiet.answer .ok (s.readReg r) := by
  unfold execRdReg at h
  split at h
  next r hr => exact .inr ⟨r, hr, (Host.Outcome.next.inj h).symm⟩
  next => exact .inl ⟨.invalidArg, by simp, (Host.Outcome.next.inj h).symm⟩

theorem execSend_cases {addr : Byte} {len : Pos} {s t : State} (h : execSend addr len s = .next t) :
    Refused s t ∨
    (s.fault = .clear ∧ s.configured = true ∧ 1 ≤ len.toNat ∧ len.toNat ≤ s.params.pduMax ∧
      s.rcvState = .idle ∧ s.sndState = .idle ∧
      t = ((s.quiet.putFrame addr len).startSending len).answer .ok 0) := by
  rcases guarded_cases (by simp) h with ⟨c, -, -, hne, rfl⟩ | ⟨hc, hk⟩
  · exact .inl ⟨_, hne, rfl⟩
  · have hf := hc (s.faulted, .faulted) (by simp)
    have h1 := hc (!s.configured, .illegalState) (by simp)
    have h2 := hc (badSendLen s len, .invalidArg) (by simp)
    have h3 := hc (s.sendBusy, .busy) (by simp)
    simp only [badSendLen, Bool.or_eq_false_iff, beq_eq_false_iff_ne, decide_eq_false_iff_not, Nat.not_lt] at h2
    have h4 : len.toNat ≠ 0 := fun h0 => h2.1 (by apply BitVec.eq_of_toNat_eq; simpa using h0)
    exact .inr ⟨(s.faulted_eq_false).mp hf, by simpa using h1, by omega, h2.2,
      ((s.sendBusy_eq_false).mp h3).1, ((s.sendBusy_eq_false).mp h3).2, (Host.Outcome.next.inj hk).symm⟩

theorem execReceive_cases {s t : State} (h : execReceive s = .next t) :
    Refused s t ∨
    (s.fault = .clear ∧ s.owned = false ∧ 4 ≤ s.rcvPos.toNat ∧ s.rcvPos.toNat ≤ s.bufSize ∧
      verify (s.memRead 0 s.rcvPos.toNat) = true ∧ t = s.quiet.answer .ok s.receiveWord) := by
  rcases guarded_cases (by simp) h with ⟨c, -, -, hne, rfl⟩ | ⟨hc, hk⟩
  · exact .inl ⟨_, hne, rfl⟩
  · have hf := hc (s.faulted, .faulted) (by simp)
    have h1 := hc (s.owned, .busy) (by simp)
    have h2 := hc (decide (s.rcvPos.toNat < Config.minFrame), .invalid) (by simp)
    replace h2 : 4 ≤ s.rcvPos.toNat := Nat.le_of_not_lt (of_decide_eq_false h2)
    simp only [State.quiet_bufSize, State.quiet_rcvPos, State.memRead_quiet] at hk
    split at hk
    · simp at hk
    · next hb =>
      split at hk
      · next hv => exact .inr ⟨(s.faulted_eq_false).mp hf, h1, h2, by omega, hv, (Host.Outcome.next.inj hk).symm⟩
      · exact .inl ⟨.invalid, by simp, (Host.Outcome.next.inj hk).symm⟩

theorem execBufRd_cases {off : Pos} {s t : State} (h : execBufRd off s = .next t) :
    Refused s t ∨
    (s.fault = .clear ∧ off.toNat < s.bufSize ∧ s.owned = false ∧
      t = s.quiet.answer .ok ((s.cell off.toNat).setWidth 32)) := by
  rcases guarded_cases (by simp) h with ⟨c, -, -, hne, rfl⟩ | ⟨hc, hk⟩
  · exact .inl ⟨_, hne, rfl⟩
  · have hf := hc (s.faulted, .faulted) (by simp)
    have h1 := hc (badOffset s off, .invalidArg) (by simp)
    have h2 := hc (s.owned, .busy) (by simp)
    exact .inr ⟨(s.faulted_eq_false).mp hf, by simpa [badOffset] using h1, h2, (Host.Outcome.next.inj hk).symm⟩

theorem execBufWr_cases {off : Pos} {v : Byte} {s t : State} (h : execBufWr off v s = .next t) :
    Refused s t ∨
    (s.fault = .clear ∧ off.toNat < s.bufSize ∧ s.owned = false ∧
      t = (s.quiet.setCell off.toNat v).answer .ok 0) := by
  rcases guarded_cases (by simp) h with ⟨c, -, -, hne, rfl⟩ | ⟨hc, hk⟩
  · exact .inl ⟨_, hne, rfl⟩
  · have hf := hc (s.faulted, .faulted) (by simp)
    have h1 := hc (badOffset s off, .invalidArg) (by simp)
    have h2 := hc (s.owned, .busy) (by simp)
    exact .inr ⟨(s.faulted_eq_false).mp hf, by simpa [badOffset] using h1, h2, (Host.Outcome.next.inj hk).symm⟩

theorem execCrc16_cases {off len : Pos} {s t : State} (h : execCrc16 off len s = .next t) :
    Refused s t ∨
    (s.fault = .clear ∧ off.toNat + len.toNat ≤ s.bufSize ∧ s.owned = false ∧
      t = s.quiet.answer .ok ((crc16 (s.memRead off.toNat len.toNat)).setWidth 32)) := by
  rcases guarded_cases (by simp) h with ⟨c, -, -, hne, rfl⟩ | ⟨hc, hk⟩
  · exact .inl ⟨_, hne, rfl⟩
  · have hf := hc (s.faulted, .faulted) (by simp)
    have h1 := hc (badRange s off.toNat len.toNat, .invalidArg) (by simp)
    simp only [State.memRead_quiet] at hk
    have h2 := hc (s.owned, .busy) (by simp)
    exact .inr ⟨(s.faulted_eq_false).mp hf, by simpa [badRange] using h1, h2, (Host.Outcome.next.inj hk).symm⟩

theorem execVerify_cases {len : Pos} {s t : State} (h : execVerify len s = .next t) :
    Refused s t ∨
    (s.fault = .clear ∧ len.toNat ≤ s.bufSize ∧ s.owned = false ∧
      t = s.quiet.answer .ok (if verify (s.memRead 0 len.toNat) then 1 else 0)) := by
  rcases guarded_cases (by simp) h with ⟨c, -, -, hne, rfl⟩ | ⟨hc, hk⟩
  · exact .inl ⟨_, hne, rfl⟩
  · have hf := hc (s.faulted, .faulted) (by simp)
    have h1 := hc (badRange s 0 len.toNat, .invalidArg) (by simp)
    simp only [State.memRead_quiet] at hk
    have h2 := hc (s.owned, .busy) (by simp)
    exact .inr ⟨(s.faulted_eq_false).mp hf, by simpa [badRange] using h1, h2, (Host.Outcome.next.inj hk).symm⟩

theorem execRxByte_cases {b : Byte} {s t : State} (h : execRxByte b s = .next t) :
    (s.fault ≠ .clear ∧ t = s.quiet) ∨
    (s.fault = .clear ∧ t = (s.quiet.takeByte b).arm .interFrameDelay s.t35Us) := by
  rcases unlessFaulted_cases h with h | ⟨hf, hk⟩
  · exact .inl h
  · exact .inr ⟨hf, (Host.Outcome.next.inj hk).symm⟩

/-- The three things a byte can do (R193). -/
theorem State.takeByte_cases (s : State) (b : Byte) :
    ((s.rcvState = .init ∨ s.rcvState = .error) ∧ s.takeByte b = s) ∨
    (s.rcvState = .idle ∧ s.takeByte b = { s.setCell 0 b with rcvPos := 1, rcvState := .receiving }) ∨
    (s.rcvState = .receiving ∧ s.rcvPos.toNat < s.bufSize ∧
      s.takeByte b = { s.setCell s.rcvPos.toNat b with rcvPos := s.rcvPos + 1 }) ∨
    (s.rcvState = .receiving ∧ s.bufSize ≤ s.rcvPos.toNat ∧ s.takeByte b = { s with rcvState := .error }) := by
  unfold State.takeByte
  cases h : s.rcvState with
  | init => simp
  | error => simp
  | idle => simp
  | receiving =>
    by_cases hp : s.rcvPos.toNat < s.bufSize
    · exact .inr (.inr (.inl ⟨rfl, hp, by simp [hp]⟩))
    · exact .inr (.inr (.inr ⟨rfl, by omega, by simp [hp]⟩))

theorem execTxEmpty_cases {s t : State} (h : execTxEmpty s = .next t) :
    (s.fault ≠ .clear ∧ t = s.quiet) ∨
    (s.fault = .clear ∧ s.sndState = .idle ∧ t = { s.quiet with rxEn := true, txEn := false }) ∨
    (s.fault = .clear ∧ s.sndState = .transmitting ∧ s.sndCnt = 0#12 ∧ t = s.quiet.completeSending) ∨
    (s.fault = .clear ∧ s.sndState = .transmitting ∧ s.sndCnt ≠ 0#12 ∧ s.sndPtr.toNat < s.bufSize ∧
      t = { s.quiet with sndPtr := s.sndPtr + 1, sndCnt := s.sndCnt - 1 }.emitTx (s.cell s.sndPtr.toNat)) ∨
    (s.fault = .clear ∧ s.sndState = .waitFollowUp ∧ t = s.quiet.raiseAssert .txEmptyInWaitFollowUp) := by
  rcases unlessFaulted_cases h with h | ⟨hf, hk⟩
  · exact .inl h
  · refine .inr ?_
    cases hs : s.sndState with
    | idle => exact .inl ⟨hf, rfl, by simpa [hs] using hk.symm⟩
    | waitFollowUp => exact .inr (.inr (.inr ⟨hf, rfl, by simpa [hs] using hk.symm⟩))
    | transmitting =>
      simp only [State.quiet_sndState, hs, State.quiet_sndCnt] at hk
      by_cases hc : s.sndCnt = 0#12
      · exact .inr (.inl ⟨hf, rfl, hc, by simpa [hc] using hk.symm⟩)
      · simp only [beq_eq_false_iff_ne.mpr hc, Bool.false_eq_true, if_false, sendNextByte] at hk
        split at hk
        next hp => exact .inr (.inr (.inl ⟨hf, rfl, hc, hp, (Host.Outcome.next.inj hk).symm⟩))
        next => simp at hk

/-- The registers at the end of a transmission (R202). -/
theorem State.completeSending_eq (s : State) :
    (s.cell 0 = 0#8 ∧ s.completeSending =
      ({ s with isBcast := true, txEn := false, rxEn := true, sndState := .waitFollowUp }).arm .convertDelay
        s.params.convertDelayUs) ∨
    (s.cell 0 ≠ 0#8 ∧ s.completeSending =
      ({ s with isBcast := false, txEn := false, rxEn := true, sndState := .waitFollowUp }).arm .respondTimeout
        s.params.respondTimeoutUs) := by
  by_cases h : s.cell 0 = 0#8
  · have hb : s.frameIsBcast = true := by simp [State.frameIsBcast, Config.bcastAddr, h]
    exact .inl ⟨h, by simp [State.completeSending, State.armFollowUp, hb]⟩
  · have hb : s.frameIsBcast = false := by simpa [State.frameIsBcast, Config.bcastAddr] using h
    exact .inr ⟨h, by simp [State.completeSending, State.armFollowUp, hb]⟩

theorem execTmrExp_cases {s t : State} (h : execTmrExp s = .next t) :
    (s.fault ≠ .clear ∧ t = s.quiet) ∨
    (s.fault = .clear ∧ s.sndState = .transmitting ∧ t = s.quiet.raiseAssert .timerWhileTransmitting) ∨
    (s.fault = .clear ∧ s.sndState ≠ .transmitting ∧
      t = (({ s.quiet with rcvState := .idle, sndState := .idle }).disarm).emitEvent s.expiryEvent) := by
  rcases unlessFaulted_cases h with h | ⟨hf, hk⟩
  · exact .inl h
  · by_cases hs : s.sndState = .transmitting
    · exact .inr (.inl ⟨hf, hs, by simpa [hs] using hk.symm⟩)
    · refine .inr (.inr ⟨hf, hs, ?_⟩)
      simp only [State.quiet_sndState, beq_eq_false_iff_ne.mpr hs, Bool.false_eq_true, if_false,
        Host.Outcome.next.injEq] at hk
      exact hk.symm

/-- `SEND`'s three writes (R175): the buffer and nothing else. -/
theorem State.putFrame_eq (s : State) (addr : Byte) (len : Pos) :
    s.putFrame addr len = { s with buf := (s.putFrame addr len).buf } := by
  unfold State.putFrame
  exact State.memWrite_eq _ _ _

@[simp] theorem State.putFrame_configured (s : State) (addr : Byte) (len : Pos) : (s.putFrame addr len).configured = s.configured := by
  rw [State.putFrame_eq]
@[simp] theorem State.putFrame_baud (s : State) (addr : Byte) (len : Pos) : (s.putFrame addr len).baud = s.baud := by
  rw [State.putFrame_eq]
@[simp] theorem State.putFrame_parity (s : State) (addr : Byte) (len : Pos) : (s.putFrame addr len).parity = s.parity := by
  rw [State.putFrame_eq]
@[simp] theorem State.putFrame_t35Us (s : State) (addr : Byte) (len : Pos) : (s.putFrame addr len).t35Us = s.t35Us := by
  rw [State.putFrame_eq]
@[simp] theorem State.putFrame_rcvState (s : State) (addr : Byte) (len : Pos) : (s.putFrame addr len).rcvState = s.rcvState := by
  rw [State.putFrame_eq]
@[simp] theorem State.putFrame_sndState (s : State) (addr : Byte) (len : Pos) : (s.putFrame addr len).sndState = s.sndState := by
  rw [State.putFrame_eq]
@[simp] theorem State.putFrame_tmrMode (s : State) (addr : Byte) (len : Pos) : (s.putFrame addr len).tmrMode = s.tmrMode := by
  rw [State.putFrame_eq]
@[simp] theorem State.putFrame_tmrArmed (s : State) (addr : Byte) (len : Pos) : (s.putFrame addr len).tmrArmed = s.tmrArmed := by
  rw [State.putFrame_eq]
@[simp] theorem State.putFrame_tmrThr (s : State) (addr : Byte) (len : Pos) : (s.putFrame addr len).tmrThr = s.tmrThr := by
  rw [State.putFrame_eq]
@[simp] theorem State.putFrame_rcvPos (s : State) (addr : Byte) (len : Pos) : (s.putFrame addr len).rcvPos = s.rcvPos := by
  rw [State.putFrame_eq]
@[simp] theorem State.putFrame_sndPtr (s : State) (addr : Byte) (len : Pos) : (s.putFrame addr len).sndPtr = s.sndPtr := by
  rw [State.putFrame_eq]
@[simp] theorem State.putFrame_sndCnt (s : State) (addr : Byte) (len : Pos) : (s.putFrame addr len).sndCnt = s.sndCnt := by
  rw [State.putFrame_eq]
@[simp] theorem State.putFrame_rxEn (s : State) (addr : Byte) (len : Pos) : (s.putFrame addr len).rxEn = s.rxEn := by
  rw [State.putFrame_eq]
@[simp] theorem State.putFrame_txEn (s : State) (addr : Byte) (len : Pos) : (s.putFrame addr len).txEn = s.txEn := by
  rw [State.putFrame_eq]
@[simp] theorem State.putFrame_isBcast (s : State) (addr : Byte) (len : Pos) : (s.putFrame addr len).isBcast = s.isBcast := by
  rw [State.putFrame_eq]
@[simp] theorem State.putFrame_fault (s : State) (addr : Byte) (len : Pos) : (s.putFrame addr len).fault = s.fault := by
  rw [State.putFrame_eq]
@[simp] theorem State.putFrame_params (s : State) (addr : Byte) (len : Pos) : (s.putFrame addr len).params = s.params := by
  rw [State.putFrame_eq]
@[simp] theorem State.putFrame_resetEpoch (s : State) (addr : Byte) (len : Pos) : (s.putFrame addr len).resetEpoch = s.resetEpoch := by
  rw [State.putFrame_eq]
@[simp] theorem State.putFrame_cfgOk (s : State) (addr : Byte) (len : Pos) : (s.putFrame addr len).cfgOk = s.cfgOk := by
  rw [State.putFrame_eq]
@[simp] theorem State.putFrame_pending (s : State) (addr : Byte) (len : Pos) : (s.putFrame addr len).pending = s.pending := by
  rw [State.putFrame_eq]
@[simp] theorem State.putFrame_out (s : State) (addr : Byte) (len : Pos) : (s.putFrame addr len).out = s.out := by
  rw [State.putFrame_eq]

@[simp] theorem State.putFrame_bufSize (s : State) (addr : Byte) (len : Pos) :
    (s.putFrame addr len).bufSize = s.bufSize := by
  rw [State.putFrame_eq]; rfl

/-- `SEND`'s writes keep the canonical form. -/
theorem State.putFrame_wf (s : State) (addr : Byte) (len : Pos) (h : s.buf.wf) : (s.putFrame addr len).buf.wf :=
  State.memWrite_wf _ _ _ (Memory.store_wf _ _ _ h)

/-- `SEND`'s writes stay below `n` when the frame fits. -/
theorem State.putFrame_inside (s : State) (addr : Byte) (len : Pos) (n : Nat) (h : ∀ c ∈ s.buf, c.1 < n)
    (hl : len.toNat + 3 ≤ n) : ∀ c ∈ (s.putFrame addr len).buf, c.1 < n := by
  refine State.memWrite_inside _ _ _ _ (fun c hc => ?_) (by simpa [crcBytes] using hl)
  rcases Memory.mem_store _ _ _ _ hc with rfl | hc
  · simp only; omega
  · exact h c hc

/-- What each cell holds after `SEND`'s three writes (R175). -/
theorem State.cell_putFrame (s : State) (addr : Byte) (len : Pos) (a : Nat) :
    (s.putFrame addr len).cell a =
      if a = 0 then addr
      else if a = len.toNat + 1 then crcLo (crc16 (addr :: s.memRead 1 len.toNat))
      else if a = len.toNat + 2 then crcHi (crc16 (addr :: s.memRead 1 len.toNat))
      else s.cell a := by
  have hr : (s.setCell 0 addr).memRead 0 (len.toNat + 1) = addr :: s.memRead 1 len.toNat := by
    rw [State.memRead_succ, State.cell_setCell_same]
    congr 1
    exact State.memRead_congr _ _ _ _ fun k h1 _ => by rw [State.cell_setCell_ne]; omega
  simp only [State.putFrame, hr, State.cell_memWrite, crcBytes, List.length_cons, List.length_nil]
  by_cases h0 : a = 0
  · subst h0; simp
  · by_cases h1 : a = len.toNat + 1
    · subst h1; simp
    · by_cases h2 : a = len.toNat + 2
      · subst h2; simp
      · simp [h0, h1, h2]; omega

/-- `SEND` lays the frame of R135 out from offset 0 (R63). -/
theorem State.memRead_putFrame (s : State) (addr : Byte) (len : Pos) :
    (s.putFrame addr len).memRead 0 (len.toNat + 3) = frameOf addr (s.memRead 1 len.toNat) := by
  rw [show len.toNat + 3 = (len.toNat + 1) + 2 by omega, State.memRead_add]
  have h1 : (s.putFrame addr len).memRead 0 (len.toNat + 1) = addr :: s.memRead 1 len.toNat := by
    rw [State.memRead_succ, State.cell_putFrame, if_pos rfl]
    congr 1
    exact State.memRead_congr _ _ _ _ fun k h1 h2 => by
      rw [State.cell_putFrame, if_neg (by omega), if_neg (by omega), if_neg (by omega)]
  rw [h1]
  simp [State.memRead_succ, State.cell_putFrame, frameOf, crcBytes]

end Sys2Proof.Machine
end

