-- ==== Sys2Proof/Laws/Effects.lean ====
section
/-! SUPPORT. Everything `exec` can do when it answers a next state, said once as a case list; later proofs take it apart and never unfold a meaning. -/

namespace Sys2Proof.Machine

/-- The outcomes of the thirteen operations, each with the next state it leads to. -/
inductive Did : Instr → State → State → Prop
  | refused {i : Instr} {s : State} (st : Status) (ha : i.agent = .host) (hne : st ≠ .ok) :
      Did i s (s.quiet.answer st 0)
  | ignored {i : Instr} {s : State} (ha : i.agent ≠ .host) (hf : s.fault ≠ .clear) : Did i s s.quiet
  | configured {r : Baud} {p : BitVec 2} {s : State} (q : Parity) (hf : s.fault = .clear) (hr : r ≠ 0#24)
      (hq : Parity.ofCode p = some q) (hw : s.cfgOk = true) :
      Did (.init r p) s (((s.quiet.emitConfig r q).configure r q).answer .ok 0)
  | portError {r : Baud} {p : BitVec 2} {s : State} (q : Parity) (hf : s.fault = .clear) (hr : r ≠ 0#24)
      (hq : Parity.ofCode p = some q) (hw : s.cfgOk = false) :
      Did (.init r p) s ((s.quiet.emitConfig r q).answer .portError 0)
  | started {s : State} (hf : s.fault = .clear) (hc : s.configured = true) :
      Did .start s
        ((({ s.quiet with rcvState := .init, rxEn := true, txEn := false }).arm .interFrameDelay s.t35Us).answer .ok 0)
  | stopped {s : State} (hf : s.fault = .clear) (hc : s.configured = true) :
      Did .stop s ((({ s.quiet with rxEn := false, txEn := false }).disarm).answer .ok 0)
  | sent {addr : Byte} {len : Pos} {s : State} (hf : s.fault = .clear) (hc : s.configured = true)
      (h1 : 1 ≤ len.toNat) (h2 : len.toNat ≤ s.params.pduMax) (hr : s.rcvState = .idle) (hs : s.sndState = .idle) :
      Did (.send addr len) s (((s.quiet.putFrame addr len).startSending len).answer .ok 0)
  | received {s : State} (hf : s.fault = .clear) (ho : s.owned = false) (h4 : 4 ≤ s.rcvPos.toNat)
      (hb : s.rcvPos.toNat ≤ s.bufSize) (hv : verify (s.memRead 0 s.rcvPos.toNat) = true) :
      Did .receive s (s.quiet.answer .ok s.receiveWord)
  | crc {off len : Pos} {s : State} (hf : s.fault = .clear) (hb : off.toNat + len.toNat ≤ s.bufSize)
      (ho : s.owned = false) :
      Did (.crc16 off len) s (s.quiet.answer .ok ((crc16 (s.memRead off.toNat len.toNat)).setWidth 32))
  | verified {len : Pos} {s : State} (hf : s.fault = .clear) (hb : len.toNat ≤ s.bufSize) (ho : s.owned = false) :
      Did (.verify len) s (s.quiet.answer .ok (if verify (s.memRead 0 len.toNat) then 1 else 0))
  | bufRead {off : Pos} {s : State} (hf : s.fault = .clear) (hb : off.toNat < s.bufSize) (ho : s.owned = false) :
      Did (.bufRd off) s (s.quiet.answer .ok ((s.cell off.toNat).setWidth 32))
  | bufWritten {off : Pos} {v : Byte} {s : State} (hf : s.fault = .clear) (hb : off.toNat < s.bufSize)
      (ho : s.owned = false) : Did (.bufWr off v) s ((s.quiet.setCell off.toNat v).answer .ok 0)
  | regRead {idx : BitVec 4} {s : State} (r : StatusReg) (hr : StatusReg.ofIdx idx = some r) :
      Did (.rdReg idx) s (s.quiet.answer .ok (s.readReg r))
  | dropped {b : Byte} {s : State} (hf : s.fault = .clear) (hr : s.rcvState = .init ∨ s.rcvState = .error) :
      Did (.rxByte b) s (s.quiet.arm .interFrameDelay s.t35Us)
  | firstByte {b : Byte} {s : State} (hf : s.fault = .clear) (hr : s.rcvState = .idle) :
      Did (.rxByte b) s
        (({ s.quiet.setCell 0 b with rcvPos := 1, rcvState := .receiving }).arm .interFrameDelay s.t35Us)
  | nextByte {b : Byte} {s : State} (hf : s.fault = .clear) (hr : s.rcvState = .receiving)
      (hp : s.rcvPos.toNat < s.bufSize) :
      Did (.rxByte b) s
        (({ s.quiet.setCell s.rcvPos.toNat b with rcvPos := s.rcvPos + 1 }).arm .interFrameDelay s.t35Us)
  | oversized {b : Byte} {s : State} (hf : s.fault = .clear) (hr : s.rcvState = .receiving)
      (hp : s.bufSize ≤ s.rcvPos.toNat) :
      Did (.rxByte b) s (({ s.quiet with rcvState := .error }).arm .interFrameDelay s.t35Us)
  | turnedAround {s : State} (hf : s.fault = .clear) (hs : s.sndState = .idle) :
      Did .txEmpty s { s.quiet with rxEn := true, txEn := false }
  | emitted {s : State} (hf : s.fault = .clear) (hs : s.sndState = .transmitting) (hc : s.sndCnt ≠ 0#12)
      (hp : s.sndPtr.toNat < s.bufSize) :
      Did .txEmpty s
        (({ s.quiet with sndPtr := s.sndPtr + 1, sndCnt := s.sndCnt - 1 }).emitTx (s.cell s.sndPtr.toNat))
  | broadcastDone {s : State} (hf : s.fault = .clear) (hs : s.sndState = .transmitting) (hc : s.sndCnt = 0#12)
      (ha : s.cell 0 = 0#8) :
      Did .txEmpty s
        (({ s.quiet with isBcast := true, txEn := false, rxEn := true, sndState := .waitFollowUp }).arm .convertDelay
          s.params.convertDelayUs)
  | unicastDone {s : State} (hf : s.fault = .clear) (hs : s.sndState = .transmitting) (hc : s.sndCnt = 0#12)
      (ha : s.cell 0 ≠ 0#8) :
      Did .txEmpty s
        (({ s.quiet with isBcast := false, txEn := false, rxEn := true, sndState := .waitFollowUp }).arm
          .respondTimeout s.params.respondTimeoutUs)
  | txAssert {s : State} (hf : s.fault = .clear) (hs : s.sndState = .waitFollowUp) :
      Did .txEmpty s (s.quiet.raiseAssert .txEmptyInWaitFollowUp)
  | expired {s : State} (hf : s.fault = .clear) (hs : s.sndState ≠ .transmitting) :
      Did .tmrExp s ((({ s.quiet with rcvState := .idle, sndState := .idle }).disarm).emitEvent s.expiryEvent)
  | tmrAssert {s : State} (hf : s.fault = .clear) (hs : s.sndState = .transmitting) :
      Did .tmrExp s (s.quiet.raiseAssert .timerWhileTransmitting)

theorem Did.ofRefused {i : Instr} {s t : State} (ha : i.agent = .host) (h : Refused s t) : Did i s t := by
  obtain ⟨st, hne, rfl⟩ := h
  exact .refused st ha hne

/-- Whatever `exec` answers as a next state is on the list. -/
theorem exec_did {i : Instr} {s t : State} (h : exec i s = .next t) : Did i s t := by
  cases i with
  | init r p =>
    rcases execInit_cases h with h | ⟨hf, hr, q, hq, ⟨hw, rfl⟩ | ⟨hw, rfl⟩⟩
    · exact .ofRefused rfl h
    · exact .configured q hf hr hq hw
    · exact .portError q hf hr hq hw
  | start =>
    rcases execStart_cases h with h | ⟨hf, hc, rfl⟩
    · exact .ofRefused rfl h
    · exact .started hf hc
  | stop =>
    rcases execStop_cases h with h | ⟨hf, hc, rfl⟩
    · exact .ofRefused rfl h
    · exact .stopped hf hc
  | send addr len =>
    rcases execSend_cases h with h | ⟨hf, hc, h1, h2, hr, hs, rfl⟩
    · exact .ofRefused rfl h
    · exact .sent hf hc h1 h2 hr hs
  | receive =>
    rcases execReceive_cases h with h | ⟨hf, ho, h4, hb, hv, rfl⟩
    · exact .ofRefused rfl h
    · exact .received hf ho h4 hb hv
  | crc16 off len =>
    rcases execCrc16_cases h with h | ⟨hf, hb, ho, rfl⟩
    · exact .ofRefused rfl h
    · exact .crc hf hb ho
  | verify len =>
    rcases execVerify_cases h with h | ⟨hf, hb, ho, rfl⟩
    · exact .ofRefused rfl h
    · exact .verified hf hb ho
  | bufRd off =>
    rcases execBufRd_cases h with h | ⟨hf, hb, ho, rfl⟩
    · exact .ofRefused rfl h
    · exact .bufRead hf hb ho
  | bufWr off v =>
    rcases execBufWr_cases h with h | ⟨hf, hb, ho, rfl⟩
    · exact .ofRefused rfl h
    · exact .bufWritten hf hb ho
  | rdReg idx =>
    rcases execRdReg_cases h with h | ⟨r, hr, rfl⟩
    · exact .ofRefused rfl h
    · exact .regRead r hr
  | rxByte b =>
    rcases execRxByte_cases h with ⟨hf, rfl⟩ | ⟨hf, rfl⟩
    · exact .ignored (by simp [Instr.agent]) hf
    · rcases s.quiet.takeByte_cases b with ⟨hr, e⟩ | ⟨hr, e⟩ | ⟨hr, hp, e⟩ | ⟨hr, hp, e⟩ <;> rw [e]
      · exact .dropped hf hr
      · exact .firstByte hf hr
      · exact .nextByte hf hr hp
      · exact .oversized hf hr hp
  | txEmpty =>
    rcases execTxEmpty_cases h with ⟨hf, rfl⟩ | ⟨hf, hs, rfl⟩ | ⟨hf, hs, hc, rfl⟩ | ⟨hf, hs, hc, hp, rfl⟩ | ⟨hf, hs, rfl⟩
    · exact .ignored (by simp [Instr.agent]) hf
    · exact .turnedAround hf hs
    · rcases s.quiet.completeSending_eq with ⟨ha, e⟩ | ⟨ha, e⟩ <;> rw [e]
      · exact .broadcastDone hf hs hc ha
      · exact .unicastDone hf hs hc ha
    · exact .emitted hf hs hc hp
    · exact .txAssert hf hs
  | tmrExp =>
    rcases execTmrExp_cases h with ⟨hf, rfl⟩ | ⟨hf, hs, rfl⟩ | ⟨hf, hs, rfl⟩
    · exact .ignored (by simp [Instr.agent]) hf
    · exact .tmrAssert hf hs
    · exact .expired hf hs

end Sys2Proof.Machine
end

