-- ==== Sys2Proof/Laws/PerInstr.lean ====
section
/-! SUPPORT. Statements about every operation as syntax, one lemma per constructor. -/

namespace Sys2Proof.Laws.RowOf

/-- The operation's word lies in the row of R101's map that carries its mnemonic and its agent. -/
def Statement (i : Instr) : Prop :=
  ∃ r ∈ opcodeTable, r.mnemonic = i.mnemonic ∧ r.agent = i.agent ∧ r.selects (encode i) = true

theorem of_bits (i : Instr) (r : OpcodeRow) (h1 : r ∈ opcodeTable) (h2 : r.mnemonic = i.mnemonic)
    (h3 : r.agent = i.agent)
    (h4 : ∀ k, k < 32 → ((encode i).getLsbD k && r.mask.getLsbD k) = r.pattern.getLsbD k) : Statement i := by
  refine ⟨r, h1, h2, h3, ?_⟩
  have h5 : encode i &&& r.mask = r.pattern :=
    BitVec.eq_of_getLsbD_eq fun k hk => by rw [BitVec.getLsbD_and]; exact h4 k hk
  simp [OpcodeRow.selects, h5]

theorem init (baud : Baud) (parity : BitVec 2) : Statement (.init baud parity) := by
  refine of_bits _ opcodeTable[0] (by decide) rfl rfl fun k hk => ?_
  simp only [encode, BitVec.getLsbD_append]
  interval_cases k <;> simp [opcodeTable]

theorem start : Statement .start := by
  refine of_bits _ opcodeTable[1] (by decide) rfl rfl fun k hk => ?_
  simp only [encode, BitVec.getLsbD_append]
  interval_cases k <;> simp [opcodeTable]

theorem stop : Statement .stop := by
  refine of_bits _ opcodeTable[2] (by decide) rfl rfl fun k hk => ?_
  simp only [encode, BitVec.getLsbD_append]
  interval_cases k <;> simp [opcodeTable]

theorem send (addr : Byte) (len : Pos) : Statement (.send addr len) := by
  refine of_bits _ opcodeTable[3] (by decide) rfl rfl fun k hk => ?_
  simp only [encode, BitVec.getLsbD_append]
  interval_cases k <;> simp [opcodeTable]

theorem receive : Statement .receive := by
  refine of_bits _ opcodeTable[4] (by decide) rfl rfl fun k hk => ?_
  simp only [encode, BitVec.getLsbD_append]
  interval_cases k <;> simp [opcodeTable]

theorem crc16 (off len : Pos) : Statement (.crc16 off len) := by
  refine of_bits _ opcodeTable[5] (by decide) rfl rfl fun k hk => ?_
  simp only [encode, BitVec.getLsbD_append]
  interval_cases k <;> simp [opcodeTable]

theorem verify (len : Pos) : Statement (.verify len) := by
  refine of_bits _ opcodeTable[6] (by decide) rfl rfl fun k hk => ?_
  simp only [encode, BitVec.getLsbD_append]
  interval_cases k <;> simp [opcodeTable]

theorem bufRd (off : Pos) : Statement (.bufRd off) := by
  refine of_bits _ opcodeTable[7] (by decide) rfl rfl fun k hk => ?_
  simp only [encode, BitVec.getLsbD_append]
  interval_cases k <;> simp [opcodeTable]

theorem bufWr (off : Pos) (data : Byte) : Statement (.bufWr off data) := by
  refine of_bits _ opcodeTable[8] (by decide) rfl rfl fun k hk => ?_
  simp only [encode, BitVec.getLsbD_append]
  interval_cases k <;> simp [opcodeTable]

theorem rdReg (idx : BitVec 4) : Statement (.rdReg idx) := by
  refine of_bits _ opcodeTable[9] (by decide) rfl rfl fun k hk => ?_
  simp only [encode, BitVec.getLsbD_append]
  interval_cases k <;> simp [opcodeTable]

theorem rxByte (byte : Byte) : Statement (.rxByte byte) := by
  refine of_bits _ opcodeTable[10] (by decide) rfl rfl fun k hk => ?_
  simp only [encode, BitVec.getLsbD_append]
  interval_cases k <;> simp [opcodeTable]

theorem txEmpty : Statement .txEmpty := by
  refine of_bits _ opcodeTable[11] (by decide) rfl rfl fun k hk => ?_
  simp only [encode, BitVec.getLsbD_append]
  interval_cases k <;> simp [opcodeTable]

theorem tmrExp : Statement .tmrExp := by
  refine of_bits _ opcodeTable[12] (by decide) rfl rfl fun k hk => ?_
  simp only [encode, BitVec.getLsbD_append]
  interval_cases k <;> simp [opcodeTable]

end Sys2Proof.Laws.RowOf
end

