-- ==== Sys2Proof/Laws/Step.lean ====
section
/-! SUPPORT. What a step can do, said once: it waits, resets, answers an illegal word, or runs one operation. -/

namespace Sys2Proof.Machine

theorem step_nil {s : State} (h : s.pending = []) : step s = .next s.quiet := by simp [step, serveNext, h]

theorem step_cons {s : State} {e : PortEvent} {rest : List PortEvent} (h : s.pending = e :: rest) :
    step s = serve e { s with pending := rest } := by
  simp [step, serveNext, h]

/-- The operation a port event asks for, when it asks for one. -/
inductive PortEvent.Asks : PortEvent → Instr → Prop
  | command {w : Word} {c : Bool} {i : Instr} (h : decodeOn .host w = .ok i) : Asks (.command w c) i
  | rxValid {b : Byte} : Asks (.rxValid b) (.rxByte b)
  | txEmpty : Asks .txEmpty .txEmpty
  | tmrExpired {a : Bool} : Asks (.tmrExpired a) .tmrExp

/-- The host's port admits host operations only (R102, R103). -/
theorem agent_of_decodeOn {a : Agent} {w : Word} {i : Instr} (h : decodeOn a w = .ok i) : i.agent = a := by
  unfold decodeOn at h
  split at h
  · split at h
    next hw => cases h; simpa [Instr.wellFormed] using hw
    next => simp at h
  · simp at h

/-- The level of `cfg_ok` the operation sees. -/
def PortEvent.cfgOkAfter (e : PortEvent) (s : State) : Bool :=
  match e with
  | .command _ c => c
  | .reset => s.cfgOk
  | .rxValid _ => s.cfgOk
  | .txEmpty => s.cfgOk
  | .tmrExpired _ => s.cfgOk

theorem serve_of_asks {e : PortEvent} {i : Instr} (h : e.Asks i) (s : State) :
    serve e s = exec i { s with cfgOk := e.cfgOkAfter s } := by
  cases h with
  | command h => simp [serve, serveCommand, h, PortEvent.cfgOkAfter]
  | rxValid => rfl
  | txEmpty => rfl
  | tmrExpired => rfl

/-- Everything serving one event can do. -/
theorem serve_cases {e : PortEvent} {s t : State} (h : serve e s = .next t) :
    (e = .reset ∧ t = s.applyReset) ∨
    (∃ w c err, e = .command w c ∧ decodeOn .host w = .error err ∧ t = s.quiet.answer .illegalOp 0) ∨
    (∃ i, e.Asks i ∧ exec i { s with cfgOk := e.cfgOkAfter s } = .next t) := by
  cases e with
  | reset => exact .inl ⟨rfl, (Host.Outcome.next.inj h).symm⟩
  | command w c =>
    simp only [serve, serveCommand] at h
    split at h
    next i hd => exact .inr (.inr ⟨i, .command hd, h⟩)
    next err hd => exact .inr (.inl ⟨w, c, err, rfl, hd, (Host.Outcome.next.inj h).symm⟩)
  | rxValid b => exact .inr (.inr ⟨_, .rxValid, h⟩)
  | txEmpty => exact .inr (.inr ⟨_, .txEmpty, h⟩)
  | tmrExpired a => exact .inr (.inr ⟨_, .tmrExpired, h⟩)

/-- Everything a step can do. -/
theorem step_cases {s t : State} (h : step s = .next t) :
    (s.pending = [] ∧ t = s.quiet) ∨
    ∃ e rest, s.pending = e :: rest ∧
      ((e = .reset ∧ t = ({ s with pending := rest }).applyReset) ∨
       (∃ w c err, e = .command w c ∧ decodeOn .host w = .error err ∧
         t = ({ s with pending := rest }).quiet.answer .illegalOp 0) ∨
       (∃ i, e.Asks i ∧ Did i { s with pending := rest, cfgOk := e.cfgOkAfter s } t)) := by
  cases hp : s.pending with
  | nil =>
    rw [step_nil hp] at h
    exact .inl ⟨rfl, (Host.Outcome.next.inj h).symm⟩
  | cons e rest =>
    rw [step_cons hp] at h
    refine .inr ⟨e, rest, rfl, ?_⟩
    rcases serve_cases h with h | h | ⟨i, hi, h⟩
    · exact .inl h
    · exact .inr (.inl h)
    · refine .inr (.inr ⟨i, hi, ?_⟩)
      cases e <;> exact exec_did h

/-- `unlessFaulted` and `guarded` start by clearing the last outputs, so no operation sees them. -/
theorem exec_out_irrelevant (i : Instr) (s : State) (o : Outputs) : exec i { s with out := o } = exec i s := by
  cases i <;> rfl

end Sys2Proof.Machine
end

