-- ==== Sys2Proof/Laws/Run.lean ====
section
/-! SUPPORT. Taking a run of port events apart. -/

namespace Sys2Proof.Machine

@[simp] theorem runEvents_nil (s : State) : runEvents [] s = some ([], s) := rfl

/-- The first event of a run, when serving it answers a next state. -/
theorem runEvents_cons {e : PortEvent} {s t : State} (h : serve e s = .next t) (es : List PortEvent) :
    runEvents (e :: es) s = (runEvents es t).map fun r => (t.out :: r.1, r.2) := by
  simp [runEvents, h]

/-- A run of two lists is the one, then the other. -/
theorem runEvents_append (a b : List PortEvent) (s : State) :
    runEvents (a ++ b) s =
      (runEvents a s).bind fun r => (runEvents b r.2).map fun q => (r.1 ++ q.1, q.2) := by
  induction a generalizing s with
  | nil => simp [runEvents]
  | cons e a ih =>
    simp only [List.cons_append, runEvents]
    cases h : serve e s with
    | next t =>
      simp only [ih]
      cases runEvents a t with
      | none => rfl
      | some r => simp; rfl
    | fault _ => rfl
    | refused _ => rfl

end Sys2Proof.Machine
end

