-- ==== Sys2Proof/Tests/Slice0.lean ====
section
/-! SUPPORT. The model's own tests. Expected values are those of spec/95_test_vectors.md (table or program named at each test) or worked out by hand from the rule named; the witnesses show that the hypotheses of each statement can be met. -/

set_option maxRecDepth 4000

namespace Sys2Proof.Tests

open Sys2Proof Sys2Proof.Machine

/-- The next state, where there is one. -/
def after : Result → Option State
  | .next t => some t
  | .fault _ => none
  | .refused _ => none

/-- Configured at 9600 baud, both state machines Idle, receive on: `STATUS = 0x00000481` (T3). -/
def idle : State :=
  { State.reset with
    configured := true, baud := 9600, t35Us := 4010, rcvState := .idle, rxEn := true,
    params := ⟨253, 70000, 30000⟩, out := {} }

/-- `idle` with these bytes in the buffer from offset 0. -/
def holding (bytes : List Byte) : State := idle.memWrite 0 bytes

/-- Sending, with the line and the counters as after a `SEND` (T6). -/
def sending (ptr cnt : Pos) : State :=
  { holding [0x05, 0x03] with sndState := .transmitting, rxEn := false, txEn := true, sndPtr := ptr, sndCnt := cnt }

/-- Waiting for the follow-up of a request to `addr` (T7 rows 12 and 14). -/
def waiting (addr : Byte) : State :=
  { holding [addr, 0x03] with
    sndState := .waitFollowUp, isBcast := addr == 0, tmrArmed := true,
    tmrMode := if addr == 0 then .convertDelay else .respondTimeout }

def faulty : State := { idle with fault := .timerWhileTransmitting }

/-- The status word, the response and the event after an operation. -/
def seen (r : Result) : Option (Word × Option Response × Option Event) :=
  (after r).map fun t => (t.statusWord, t.out.rsp, t.out.ev)

/-! ## Well-formedness -/

/-- R103: the host cannot issue the collaborators' stimuli. -/
theorem test_wellFormed_refuses_stimuli_on_host :
    (Instr.rxByte 0x05).wellFormed .host = false ∧ Instr.txEmpty.wellFormed .host = false ∧
    Instr.tmrExp.wellFormed .host = false := by decide

/-- R271: the collaborators issue nothing but their own stimuli. -/
theorem test_wellFormed_refuses_commands_on_collaborators :
    Instr.start.wellFormed .serial = false ∧ Instr.txEmpty.wellFormed .timer = false ∧
    (Instr.rdReg 0).wellFormed .timer = false := by decide

theorem test_wellFormed_accepts : (Instr.rxByte 0x05).wellFormed .serial = true ∧
    Instr.tmrExp.wellFormed .timer = true ∧ (Instr.send 5 0).wellFormed .host = true := by decide

/-! ## Decoding: words written out from the formats of R92 to R99 -/

/-- T2: `INIT 19200, E`. -/
theorem test_decode_init : decode 0b00000010000000000100101100000000#32 = .ok (.init 19200 2) := by decide
theorem test_decode_start : decode 0b00010000000000000000000000000000#32 = .ok .start := by decide
theorem test_decode_stop : decode 0b00100000000000000000000000000000#32 = .ok .stop := by decide
/-- T3: `SEND 255, 253`. -/
theorem test_decode_send : decode 0b00111111111100000000000011111101#32 = .ok (.send 255 253) := by decide
theorem test_decode_receive : decode 0b01000000000000000000000000000000#32 = .ok .receive := by decide
/-- T1: `CRC16 1, 4`. -/
theorem test_decode_crc16 : decode 0b01010000000000000001000000000100#32 = .ok (.crc16 1 4) := by decide
/-- T1: `VERIFY 257`. -/
theorem test_decode_verify : decode 0b01100000000000000000000100000001#32 = .ok (.verify 257) := by decide
/-- T3: `BUF_RD 256`. -/
theorem test_decode_bufRd : decode 0b01110000000100000000000000000000#32 = .ok (.bufRd 256) := by decide
/-- T3: `BUF_WR 1, 0xAB`. -/
theorem test_decode_bufWr : decode 0b10000000000000000001000010101011#32 = .ok (.bufWr 1 0xAB) := by decide
/-- P1: `RD_REG TMR_THR`. -/
theorem test_decode_rdReg : decode 0b10010000000000000000000000000101#32 = .ok (.rdReg 5) := by decide
/-- P1: `RX_BYTE 0x7B`. -/
theorem test_decode_rxByte : decode 0b10100000000000000000000001111011#32 = .ok (.rxByte 0x7B) := by decide
theorem test_decode_txEmpty : decode 0b10110000000000000000000000000000#32 = .ok .txEmpty := by decide
theorem test_decode_tmrExp : decode 0b11000000000000000000000000000000#32 = .ok .tmrExp := by decide

/-- T8, T3, T2: reserved opcodes, must-be-zero bits, and stimuli on the host port. -/
theorem test_decode_refuses :
    decode 0xE1234567#32 = .error (.reservedOpcode 0xE) ∧ decode 0x30501005#32 = .error (.mustBeZeroBitSet 3) ∧
    decode 0x70000001#32 = .error (.mustBeZeroBitSet 7) ∧ decode 0x800011AB#32 = .error (.mustBeZeroBitSet 8) ∧
    decode 0x90000010#32 = .error (.mustBeZeroBitSet 9) ∧
    decodeOn .host 0xC0000000#32 = .error (.notIssuableBy .host .tmrExp) := by decide

/-- The encoder gives the words of P1 back. -/
theorem test_encode : encode (.init 9600 0) = 0x00002580#32 ∧ encode (.bufWr 5 0x01) = 0x80005001#32 ∧
    encode (.send 5 5) = 0x30500005#32 := by decide

theorem test_decodeTableWord : decodeTableWord 32 0x50001004 = some (.crc16 1 4) ∧
    decodeTableWord 32 0xF0000000 = none ∧ decodeTableWord 40 0x0150001004 = none := by decide

/-- R112, R113: assembly text and a pseudo-operation. -/
theorem test_asm : asmLine (.init 9600 0) = "INIT 9600, N" ∧ asmLine (.rdReg 3) = "RD_REG RCV_POS" ∧
    (Pseudo.sendp 5 [0x03, 0x00]).expand = [.bufWr 1 0x03, .bufWr 2 0x00, .send 5 2] := by decide

/-! ## One step each -/

/-- T2: at 9600 the threshold is 4010; the registers of R150 and nothing else. -/
theorem test_init_ok : (after (execInit 9600 0 { State.reset with cfgOk := true })).map
    (fun t => (t.statusWord, t.baud, t.t35Us, t.out.cfg)) = some (0x400#32, 9600, 4010, some ⟨9600, .none, 1, 8⟩) := by
  decide
/-- T2: `PortError`, nothing stored, `cfg_valid` raised. -/
theorem test_init_portError : (after (execInit 9600 0 State.reset)).map
    (fun t => (t.statusWord, t.baud, t.out.rsp, t.out.cfg)) =
    some (0#32, 0, some ⟨.portError, 0⟩, some ⟨9600, .none, 1, 8⟩) := by decide

/-- T2. -/
theorem test_t35 : t35Of 19200 = 2005 ∧ t35Of 19201 = 1750 ∧ t35Of 1 = 38500000 ∧ t35Of 110 = 350000 := by decide

/-- P6: `START` in the middle of a transmission clears `tx_en` and arms the timer. -/
theorem test_start_while_sending : (after (execStart (sending 1 3))).map (fun t => (t.statusWord, t.tmrThr)) =
    some (0x4C4#32, 4010) := by decide
/-- T2. -/
theorem test_start_unconfigured : seen (execStart State.reset) = some (0#32, some ⟨.illegalState, 0⟩, none) := by decide

/-- R158: both paths off, timer off, the state machines kept. -/
theorem test_stop_while_waiting : (after (execStop (waiting 0x05))).map (fun t => (t.statusWord, t.out.tmr)) =
    some (0x419#32, some .disarm) := by decide
/-- P7. -/
theorem test_stop_faulted : seen (execStop faulty) = some (0x1481#32, some ⟨.faulted, 0⟩, none) := by decide

/-- T3: `SEND 5, 5` with `03 00 00 00 01` loaded. -/
theorem test_send_frames_in_place :
    (after (execSend 5 5 (holding [0xEE, 0x03, 0x00, 0x00, 0x00, 0x01]))).map
      (fun t => (t.statusWord, t.sndCnt, t.memRead 0 8)) =
    some (0x505#32, 8, [0x05, 0x03, 0x00, 0x00, 0x00, 0x01, 0x85, 0x8E]) := by decide
/-- T3: the argument is checked before the bus. -/
theorem test_send_check_order : seen (execSend 5 0 { idle with rcvState := .receiving }) =
    some (0x482#32, some ⟨.invalidArg, 0⟩, none) := by decide

/-- T3: `RECEIVE` of `05 03 02 00 7B 09 A7`. -/
theorem test_receive_ok :
    seen (execReceive { holding [0x05, 0x03, 0x02, 0x00, 0x7B, 0x09, 0xA7] with rcvPos := 7 }) =
      some (0x481#32, some ⟨.ok, 0x00050004⟩, none) := by decide
/-- T3: `FF FF` is too short although its CRC is zero. -/
theorem test_receive_short :
    seen (execReceive { holding [0xFF, 0xFF] with rcvPos := 2 }) = some (0x481#32, some ⟨.invalid, 0⟩, none) := by decide

/-- T1: `CRC16 1, 4` over `03 02 00 7B`. -/
theorem test_crc16_ok : seen (execCrc16 1 4 (holding [0x05, 0x03, 0x02, 0x00, 0x7B, 0x09, 0xA7])) =
    some (0x481#32, some ⟨.ok, 0x83E1⟩, none) := by decide
/-- T1: 255 + 2 > 256. -/
theorem test_crc16_range : seen (execCrc16 255 2 idle) = some (0x481#32, some ⟨.invalidArg, 0⟩, none) := by decide

/-- T1. -/
theorem test_verify_good : seen (execVerify 7 (holding [0x05, 0x03, 0x02, 0x00, 0x7B, 0x09, 0xA7])) =
    some (0x481#32, some ⟨.ok, 1⟩, none) := by decide
theorem test_verify_cut : seen (execVerify 6 (holding [0x05, 0x03, 0x02, 0x00, 0x7B, 0x09, 0xA7])) =
    some (0x481#32, some ⟨.ok, 0⟩, none) := by decide

/-- T3. -/
theorem test_bufRd : seen (execBufRd 1 (holding [0x05, 0x83])) = some (0x481#32, some ⟨.ok, 0x83⟩, none) := by decide
theorem test_bufRd_outside : seen (execBufRd 256 idle) = some (0x481#32, some ⟨.invalidArg, 0⟩, none) := by decide

/-- T3. -/
theorem test_bufWr : (after (execBufWr 1 0xAB (holding [0x01, 0x02, 0x03]))).map (fun t => t.memRead 0 3) =
    some [0x01, 0xAB, 0x03] := by decide
theorem test_bufWr_owned : seen (execBufWr 1 0xAB { idle with rcvState := .receiving }) =
    some (0x482#32, some ⟨.busy, 0⟩, none) := by decide

/-- P1: `SND` after the `SEND`. -/
theorem test_rdReg_snd : seen (execRdReg 4 (sending 0 8)) = some (0x505#32, some ⟨.ok, 0x00080000⟩, none) := by decide
/-- T8: `RD_REG STATUS` answers while Faulted. -/
theorem test_rdReg_faulted : seen (execRdReg 0 faulty) = some (0x1481#32, some ⟨.ok, 0x1481⟩, none) := by decide

/-- T5: the last free cell. -/
theorem test_rxByte_last_cell : (after (execRxByte 0x5A { idle with rcvState := .receiving, rcvPos := 255 })).map
    (fun t => (t.statusWord, t.rcvPos, t.buf, t.tmrThr)) = some (0x4C2#32, 256, [(255, 0x5A)], 4010) := by decide
/-- T5: a reply's first byte replaces the respond timeout. -/
theorem test_rxByte_reply : (after (execRxByte 0x5A (waiting 0x05))).map
    (fun t => (t.statusWord, t.rcvPos, t.memRead 0 2)) = some (0x4CA#32, 1, [0x5A, 0x03]) := by decide

/-- T6. -/
theorem test_txEmpty_next_byte : (after (execTxEmpty (sending 0 8))).map
    (fun t => (t.statusWord, t.out.tx, t.sndPtr, t.sndCnt)) = some (0x505#32, some 0x05, 1, 7) := by decide
/-- T6: completion after a unicast. -/
theorem test_txEmpty_completes : (after (execTxEmpty (sending 8 0))).map (fun t => (t.statusWord, t.tmrThr, t.out.tx)) =
    some (0x4D9#32, 70000, none) := by decide

/-- T7 row 14. -/
theorem test_tmrExp_broadcast : seen (execTmrExp (waiting 0x00)) = some (0x6A1#32, none, some ⟨.execute, .none⟩) := by
  decide
/-- T7 row 1. -/
theorem test_tmrExp_fault : seen (execTmrExp { sending 1 3 with tmrArmed := true }) = some (0x1545#32, none, none) := by
  decide

/-- T8: the decoder's refusal comes before `Faulted`. -/
theorem test_step_illegal_on_faulted : seen (step { faulty with pending := [.command 0xD0000000#32 true] }) =
    some (0x1481#32, some ⟨.illegalOp, 0⟩, none) := by decide

/-- A placed word is what the next step runs: `BUF_WR 1, 0xAB` straight after reset (T3). -/
theorem test_withFetchWord : (after (step (State.reset.withFetchWord 32 0x800010AB))).map (fun t => (t.buf, t.pending)) =
    some ([(1, 0xAB)], []) := by decide

theorem test_reset_memory_wf : State.reset.buf.wf := by decide

/-- A store keeps the canonical form by replacing the cell it overwrites. -/
theorem test_store_order : ((idle.setCell 3 0x30).setCell 1 0x10).buf = [(1, 0x10), (3, 0x30)] ∧
    ((idle.setCell 3 0x30).setCell 3 0x31).buf = [(3, 0x31)] := by decide

/-! ## Witnesses: the hypotheses of each statement, met together, each clause at a boundary of its range -/

theorem test_witness_reset : ({ idle with pending := [.reset, .txEmpty] }).pending = .reset :: [.txEmpty] := by decide

theorem test_witness_encodeOfDecode : decode 0x3FF000FD#32 = .ok (.send 255 253) := by decide

theorem test_witness_opcodeMap : ∃ r ∈ opcodeTable, r.selects 0x900000FF#32 = false ∧ r.selects 0x9000000F#32 = true ∧
    decode 0x9000000F#32 = .ok (.rdReg 15) := by decide

theorem test_witness_hostCommand :
    ({ idle with pending := [.command 0x10000000#32 false] }).pending = .command 0x10000000#32 false :: [] ∧
    decodeOn .host 0x10000000#32 = .ok .start := by decide

theorem test_witness_stimulus : ({ idle with pending := [.rxValid 0x05] }).pending = .rxValid 0x05 :: [] ∧
    ({ idle with pending := [.txEmpty] }).pending = .txEmpty :: [] ∧
    ({ idle with pending := [.tmrExpired false] }).pending = .tmrExpired false :: [] := by decide

/-- The first opcode past the host's, the last opcode, and a must-be-zero bit. -/
theorem test_witness_illegalWord :
    ({ faulty with pending := [.command 0xA0000005#32 true] }).pending = .command 0xA0000005#32 true :: [] ∧
    10 ≤ (opcode 0xA0000005#32).toNat ∧ 10 ≤ (opcode 0xFFFFFFFF#32).toNat ∧
    (∃ r ∈ opcodeTable, opcode r.pattern = opcode 0x10000001#32 ∧ r.selects 0x10000001#32 = false) := by decide

theorem test_witness_waits : State.reset.pending = [] := by decide

theorem test_witness_init : faulty.fault ≠ .clear ∧ idle.fault = .clear ∧ (1#24) ≠ 0#24 ∧ (0xFFFFFF#24) ≠ 0#24 ∧
    2#2 = Parity.even.code ∧ idle.cfgOk = false ∧ ({ idle with cfgOk := true }).cfgOk = true ∧
    ({ idle with cfgOk := true }).fault = .clear := by decide

theorem test_witness_threshold : 19200 < (19201#24).toNat ∧ 1 ≤ (1#24).toNat ∧ (1#24).toNat ≤ 19200 ∧
    1 ≤ (19200#24).toNat ∧ (19200#24).toNat ≤ 19200 := by decide

theorem test_witness_start_stop : faulty.fault ≠ .clear ∧ (State.reset.fault = .clear ∧ State.reset.configured = false) ∧
    (idle.fault = .clear ∧ idle.configured = true) := by decide

theorem test_witness_rdReg : 5 < (6#4).toNat ∧ 5 < (15#4).toNat := by decide

/-- `len` 0, `PDU_MAX + 1`, `PDU_MAX` and 1; each reason to be Busy. -/
theorem test_witness_send : faulty.fault ≠ .clear ∧ State.reset.configured = false ∧
    (idle.fault = .clear ∧ idle.configured = true ∧ idle.params.pduMax < (254#12).toNat) ∧
    (253#12 ≠ 0#12 ∧ (253#12).toNat ≤ idle.params.pduMax ∧ 1#12 ≠ 0#12 ∧ (1#12).toNat ≤ idle.params.pduMax) ∧
    (idle.rcvState = .idle ∧ idle.sndState = .idle) ∧
    ((waiting 0x05).fault = .clear ∧ (waiting 0x05).configured = true ∧ (waiting 0x05).sndState ≠ .idle ∧
      (1#12).toNat ≤ (waiting 0x05).params.pduMax) := by decide

/-- `rcv_pos` 3 and 4, and a buffer filled to the end; frames that verify and that do not. -/
theorem test_witness_receive : faulty.fault ≠ .clear ∧ ((sending 0 8).fault = .clear ∧ (sending 0 8).sndState = .transmitting) ∧
    (let s := { holding [0x05, 0x03, 0x09] with rcvPos := 3 }
     s.fault = .clear ∧ s.rcvState ≠ .receiving ∧ s.sndState ≠ .transmitting ∧ s.rcvPos.toNat < 4) ∧
    (let s := { holding [0x01, 0x03, 0x40, 0x21] with rcvPos := 4 }
     s.fault = .clear ∧ s.rcvState ≠ .receiving ∧ s.sndState ≠ .transmitting ∧ 4 ≤ s.rcvPos.toNat ∧
       s.rcvPos.toNat ≤ s.bufSize ∧ crc16 (s.memRead 0 s.rcvPos.toNat) = 0#16) ∧
    (let s := { holding [0x01, 0x03, 0x40, 0x20] with rcvPos := 4 }
     s.fault = .clear ∧ s.rcvState ≠ .receiving ∧ s.sndState ≠ .transmitting ∧ 4 ≤ s.rcvPos.toNat ∧
       s.rcvPos.toNat ≤ s.bufSize ∧ crc16 (s.memRead 0 s.rcvPos.toNat) ≠ 0#16) ∧
    (256#12).toNat ≤ idle.bufSize := by decide

/-- The range that ends at the last cell, the empty range there, and the first range past it. -/
theorem test_witness_codec : faulty.fault ≠ .clear ∧ idle.fault = .clear ∧
    idle.bufSize < (255#12).toNat + (2#12).toNat ∧ idle.bufSize < (257#12).toNat ∧
    (255#12).toNat + (1#12).toNat ≤ idle.bufSize ∧ (256#12).toNat + (0#12).toNat ≤ idle.bufSize ∧
    (256#12).toNat ≤ idle.bufSize ∧ idle.rcvState ≠ .receiving ∧ idle.sndState ≠ .transmitting ∧
    ((sending 0 8).fault = .clear ∧ (sending 0 8).sndState = .transmitting ∧
      (0#12).toNat + (256#12).toNat ≤ (sending 0 8).bufSize) := by decide

/-- Offsets 255 and 256. -/
theorem test_witness_bufRd_bufWr : faulty.fault ≠ .clear ∧ (idle.fault = .clear ∧ idle.bufSize ≤ (256#12).toNat) ∧
    ((255#12).toNat < idle.bufSize ∧ idle.rcvState ≠ .receiving ∧ idle.sndState ≠ .transmitting) ∧
    ((sending 0 8).fault = .clear ∧ (255#12).toNat < (sending 0 8).bufSize ∧ (sending 0 8).sndState = .transmitting) := by
  decide

/-- `rcv_pos` 255 and 256 in Receiving; the three other states. -/
theorem test_witness_rxByte :
    (State.reset.fault = .clear ∧ State.reset.rcvState = .init) ∧
    (let s := { idle with rcvState := .error }; s.fault = .clear ∧ s.rcvState = .error) ∧
    (idle.fault = .clear ∧ idle.rcvState = .idle) ∧
    (let s := { idle with rcvState := .receiving, rcvPos := 255 }
     s.fault = .clear ∧ s.rcvState = .receiving ∧ s.rcvPos.toNat < s.bufSize) ∧
    (let s := { idle with rcvState := .receiving, rcvPos := 256 }
     s.fault = .clear ∧ s.rcvState = .receiving ∧ s.bufSize ≤ s.rcvPos.toNat) := by decide

/-- The last byte of a full buffer, and both completions. -/
theorem test_witness_txEmpty :
    (idle.fault = .clear ∧ idle.sndState = .idle) ∧
    ((sending 255 1).fault = .clear ∧ (sending 255 1).sndState = .transmitting ∧ (sending 255 1).sndCnt ≠ 0#12 ∧
      (sending 255 1).sndPtr.toNat < (sending 255 1).bufSize) ∧
    ((sending 8 0).fault = .clear ∧ (sending 8 0).sndState = .transmitting ∧ (sending 8 0).sndCnt = 0#12 ∧
      (sending 8 0).cell 0 ≠ 0#8) ∧
    (let s := (sending 8 0).setCell 0 0x00
     s.fault = .clear ∧ s.sndState = .transmitting ∧ s.sndCnt = 0#12 ∧ s.cell 0 = 0#8) := by decide

theorem test_witness_breaches : ((waiting 0x05).fault = .clear ∧ (waiting 0x05).sndState = .waitFollowUp) ∧
    ((sending 1 3).fault = .clear ∧ (sending 1 3).sndState = .transmitting) := by decide

/-- T7: a state for each row of R215. -/
theorem test_witness_expiry :
    ((sending 1 3).fault = .clear ∧ (sending 1 3).sndState = .transmitting) ∧
    (∀ r ∈ [RcvState.init, .receiving, .error], (let s := { idle with rcvState := r }
      s.fault = .clear ∧ s.sndState ≠ .transmitting ∧ s.rcvState = r)) ∧
    (let s := waiting 0x05
     s.fault = .clear ∧ s.sndState = .waitFollowUp ∧ s.rcvState = .idle ∧ s.isBcast = false) ∧
    (let s := waiting 0x00
     s.fault = .clear ∧ s.sndState = .waitFollowUp ∧ s.rcvState = .idle ∧ s.isBcast = true ∧ s.tmrMode = .convertDelay) ∧
    (let s := { waiting 0x00 with tmrMode := .respondTimeout }
     s.fault = .clear ∧ s.sndState = .waitFollowUp ∧ s.rcvState = .idle ∧ s.isBcast = true ∧ s.tmrMode ≠ .convertDelay) ∧
    (let s := { idle with tmrMode := .convertDelay }
     s.fault = .clear ∧ s.sndState = .idle ∧ s.rcvState = .idle ∧ s.tmrMode = .convertDelay) ∧
    (idle.fault = .clear ∧ idle.sndState = .idle ∧ idle.rcvState = .idle ∧ idle.tmrMode ≠ .convertDelay) := by decide

theorem test_witness_faulted : faulty.fault ≠ .clear ∧ Instr.start.agent = .host ∧
    (∀ idx, Instr.start ≠ .rdReg idx) ∧ Instr.txEmpty.agent ≠ .host := by decide

/-- Each cause sets the latch; a Faulted block with a stimulus waiting. -/
theorem test_witness_faultLatch :
    (∃ t, exec .tmrExp (sending 1 3) = .next t ∧ t.fault ≠ (sending 1 3).fault) ∧
    (∃ t, exec .txEmpty (waiting 0x05) = .next t ∧ t.fault ≠ (waiting 0x05).fault) ∧
    (let s := { faulty with pending := [.txEmpty] }
     (∃ t, step s = .next t) ∧ s.fault ≠ .clear ∧ ∀ rest, s.pending ≠ .reset :: rest) :=
  ⟨⟨_, rfl, by decide⟩, ⟨_, rfl, by decide⟩, ⟨_, rfl⟩, by decide, by simp⟩

theorem test_witness_receiverMoves :
    (let s := { idle with pending := [.reset] }; s.pending = .reset :: [] ∧ ∃ t, step s = .next t) ∧
    (∃ t, exec .start idle = .next t ∧ t.rcvState ≠ idle.rcvState) ∧
    (∃ t, exec (.rxByte 0x05) idle = .next t ∧ t.rcvState ≠ idle.rcvState) ∧
    (let s := { idle with rcvState := .receiving, rcvPos := 256 }
     ∃ t, exec (.rxByte 0x05) s = .next t ∧ t.rcvState ≠ s.rcvState) ∧
    (let s := { idle with rcvState := .error }
     s.fault = .clear ∧ s.sndState ≠ .transmitting ∧ ∃ t, exec .tmrExp s = .next t ∧ t.rcvState ≠ s.rcvState) :=
  ⟨⟨rfl, _, rfl⟩, ⟨_, rfl, by decide⟩, ⟨_, rfl, by decide⟩, ⟨_, rfl, by decide⟩, rfl, by decide, _, rfl, by decide⟩

theorem test_witness_transmitterMoves :
    (∃ t, exec (.send 5 1) (holding [0x00, 0x03]) = .next t ∧ t.sndState ≠ .idle) ∧
    (∃ t, exec .txEmpty (sending 8 0) = .next t ∧ t.sndState ≠ (sending 8 0).sndState) ∧
    (∃ t, exec .tmrExp (waiting 0x05) = .next t ∧ t.sndState ≠ (waiting 0x05).sndState) :=
  ⟨⟨_, rfl, by decide⟩, ⟨_, rfl, by decide⟩, ⟨_, rfl, by decide⟩⟩

/-- A refused operation and the one refusal with an output besides. -/
theorem test_witness_refused : Instr.start.agent = .host ∧
    (∃ t, exec .start State.reset = .next t ∧ t.out.rsp = some ⟨.illegalState, 0⟩) ∧
    (∃ t, exec (.init 9600 0) State.reset = .next t ∧ t.out.rsp = some ⟨.portError, 0⟩) :=
  ⟨rfl, ⟨_, rfl, rfl⟩, ⟨_, rfl, rfl⟩⟩

/-- An event, a byte and a configuration request are each emitted somewhere. -/
theorem test_witness_outputs :
    (∃ t, exec .tmrExp (waiting 0x05) = .next t ∧ t.out.ev = some ⟨.errorProcess, .respondTimeout⟩) ∧
    (∃ t, exec .txEmpty (sending 0 8) = .next t ∧ t.out.tx = some 0x05) ∧
    (∃ t, exec (.init 9600 0) State.reset = .next t ∧ t.out.cfg = some ⟨9600, .none, 1, 8⟩) :=
  ⟨⟨_, rfl, by decide⟩, ⟨_, rfl, by decide⟩, ⟨_, rfl, rfl⟩⟩

/-- Each of the three writers changes a cell. -/
theorem test_witness_cells :
    (∃ t, exec (.bufWr 1 0xAB) (holding [0x01, 0x02]) = .next t ∧ t.cell 1 ≠ (holding [0x01, 0x02]).cell 1) ∧
    (∃ t, exec (.send 5 1) (holding [0x00, 0x03]) = .next t ∧ t.cell 0 ≠ (holding [0x00, 0x03]).cell 0) ∧
    (∃ t, exec (.rxByte 0x5A) (holding [0x01]) = .next t ∧ t.cell 0 ≠ (holding [0x01]).cell 0) :=
  ⟨⟨_, rfl, by decide⟩, ⟨_, rfl, by decide⟩, ⟨_, rfl, by decide⟩⟩

/-- Each group of registers changes somewhere. -/
theorem test_witness_registers :
    (∃ t, exec (.init 19200 2) { State.reset with cfgOk := true } = .next t ∧
      t.configured ≠ State.reset.configured ∧ t.baud ≠ State.reset.baud ∧ t.parity ≠ State.reset.parity ∧
      t.t35Us ≠ State.reset.t35Us) ∧
    (∃ t, exec (.rxByte 0x5A) (waiting 0x05) = .next t ∧ t.tmrMode ≠ (waiting 0x05).tmrMode ∧
      t.rcvPos ≠ (waiting 0x05).rcvPos) ∧
    (∃ t, exec .tmrExp (waiting 0x05) = .next t ∧ t.tmrArmed ≠ (waiting 0x05).tmrArmed) ∧
    (∃ t, exec .txEmpty (sending 0 8) = .next t ∧ t.sndPtr ≠ (sending 0 8).sndPtr) ∧
    (let s := (sending 8 0).setCell 0 0x00
     ∃ t, exec .txEmpty s = .next t ∧ t.isBcast ≠ s.isBcast ∧ t.rxEn ≠ s.rxEn ∧ t.sndState ≠ s.sndState) ∧
    (∃ t, exec .start idle = .next t ∧ t.rcvState ≠ idle.rcvState) ∧
    (∃ t, exec .tmrExp (sending 1 3) = .next t ∧ t.fault ≠ (sending 1 3).fault) :=
  ⟨⟨_, rfl, by decide, by decide, by decide, by decide⟩, ⟨_, rfl, by decide, by decide⟩, ⟨_, rfl, by decide⟩,
    ⟨_, rfl, by decide⟩, ⟨_, rfl, by decide, by decide, by decide⟩, ⟨_, rfl, by decide⟩, ⟨_, rfl, by decide⟩⟩

theorem test_witness_pure : (∃ t, exec (.rdReg 0) idle = .next t) ∧ (∃ t, exec (.bufRd 255) idle = .next t) ∧
    (∃ t, exec (.verify 0) idle = .next t) ∧ (∃ t, exec (.crc16 256 0) idle = .next t) ∧
    (∃ t, exec .receive idle = .next t) :=
  ⟨⟨_, rfl⟩, ⟨_, rfl⟩, ⟨_, rfl⟩, ⟨_, rfl⟩, ⟨_, rfl⟩⟩

theorem test_idle_inv : idle.Inv := by constructor <;> decide

theorem test_sending_inv : (sending 2 4).Inv := by constructor <;> decide

theorem test_waiting_inv : (waiting 0x05).Inv ∧ (waiting 0x00).Inv := ⟨by constructor <;> decide, by constructor <;> decide⟩

/-- States with the invariants from which operations run. -/
theorem test_witness_inv_steps :
    (idle.Inv ∧ ∃ t, step (idle.withFetchWord 32 0x80001003) = .next t) ∧
    ((sending 2 4).Inv ∧ ∃ t, exec .txEmpty (sending 2 4) = .next t ∧ t.sndPtr.toNat + t.sndCnt.toNat = 6) :=
  ⟨⟨test_idle_inv, _, rfl⟩, test_sending_inv, _, rfl, by decide⟩

theorem test_holding_inv : (holding [0x00, 0x03]).Inv := by constructor <;> decide

/-- The shortest and the longest `SEND` answered `Ok`, a refused `SEND`, and an operation that is no `SEND`, each from a
state with the invariants. -/
theorem test_witness_frameLength :
    (∀ len ∈ [1#12, 253#12], ∃ t, exec (.send 5 len) (holding [0x00, 0x03]) = .next t ∧ t.out.rsp = some ⟨.ok, 0⟩) ∧
    (holding [0x00, 0x03]).Inv ∧
    (∃ t, exec (.send 5 1) (sending 2 4) = .next t ∧ t.out.rsp = some ⟨.busy, 0⟩) ∧
    (∃ t, exec .txEmpty (sending 2 4) = .next t ∧ ∀ addr len, Instr.txEmpty ≠ .send addr len) ∧ (sending 2 4).Inv := by
  refine ⟨?_, test_holding_inv, ⟨_, rfl, rfl⟩, ⟨_, rfl, by simp⟩, test_sending_inv⟩
  intro len hl
  fin_cases hl <;> exact ⟨_, rfl, rfl⟩

/-- `rcv_pos` and `snd_ptr` just past the buffer. -/
theorem test_witness_readOutside :
    (let s := { idle with rcvPos := 257 }
     s.fault = .clear ∧ s.rcvState ≠ .receiving ∧ s.sndState ≠ .transmitting ∧ 4 ≤ s.rcvPos.toNat ∧
       s.bufSize < s.rcvPos.toNat) ∧
    (let s := sending 256 1
     s.fault = .clear ∧ s.sndState = .transmitting ∧ s.sndCnt ≠ 0#12 ∧ s.bufSize ≤ s.sndPtr.toNat) := by decide

theorem test_idle_contract : idle.ContractInv := ⟨test_idle_inv, by decide, by decide, by decide, by decide⟩

theorem test_sending_contract : (sending 2 4).ContractInv :=
  ⟨test_sending_inv, by decide, by decide, by decide, by decide⟩

theorem test_waiting_contract : (waiting 0x05).ContractInv ∧ (waiting 0x00).ContractInv :=
  ⟨⟨test_waiting_inv.1, by decide, by decide, by decide, by decide⟩,
    ⟨test_waiting_inv.2, by decide, by decide, by decide, by decide⟩⟩

/-- The invariants do not see what is pending. -/
theorem contract_pending {s : State} (h : s.ContractInv) (es : List PortEvent) :
    ({ s with pending := es } : State).ContractInv :=
  have i := h.inv
  ⟨⟨i.1, i.2, i.3, i.4, i.5, i.6, i.7, i.8, i.9, i.10, i.11, i.12⟩, h.2, h.3, h.4, h.5⟩

/-- Each kind of event keeps the contract somewhere. -/
theorem test_witness_contract :
    (let s := { idle with pending := [.reset] }; s.ContractInv ∧ s.pending = .reset :: [] ∧ PortEvent.reset.keepsContract s) ∧
    (let s := { idle with pending := [.command 0x10000000#32 true] }
     s.ContractInv ∧ s.pending = .command 0x10000000#32 true :: [] ∧
       (PortEvent.command 0x10000000#32 true).keepsContract s) ∧
    (let s := { idle with pending := [.rxValid 0x05] }
     s.ContractInv ∧ s.pending = .rxValid 0x05 :: [] ∧ (PortEvent.rxValid 0x05).keepsContract s) ∧
    (let s := { sending 2 4 with pending := [.txEmpty] }
     s.ContractInv ∧ s.pending = .txEmpty :: [] ∧ PortEvent.txEmpty.keepsContract s) ∧
    (let s := { waiting 0x05 with pending := [.tmrExpired true] }
     s.ContractInv ∧ s.pending = .tmrExpired true :: [] ∧ (PortEvent.tmrExpired true).keepsContract s) :=
  ⟨⟨contract_pending test_idle_contract _, rfl, trivial⟩,
    ⟨contract_pending test_idle_contract _, rfl, fun _ => rfl⟩,
    ⟨contract_pending test_idle_contract _, rfl, rfl⟩, ⟨contract_pending test_sending_contract _, rfl, rfl⟩,
    ⟨contract_pending test_waiting_contract.1 _, rfl, rfl⟩⟩

/-- Every clause of R290's list of events: the running timer in Init, Receiving, Error and in both follow-ups. -/
theorem test_witness_expiryUnderContract :
    (∀ r ∈ [RcvState.init, .receiving, .error],
      (let s := { idle with rcvState := r, tmrArmed := true, pending := [.tmrExpired false] }
       s.ContractInv ∧ s.pending = .tmrExpired false :: [] ∧ s.tmrArmed = true ∧ s.rcvState = r)) ∧
    (∀ addr ∈ [0x05#8, 0x00#8],
      (let s := { waiting addr with pending := [.tmrExpired true] }
       s.ContractInv ∧ s.pending = .tmrExpired true :: [] ∧ s.tmrArmed = true ∧ s.rcvState = .idle)) := by
  refine ⟨?_, ?_⟩
  · intro r hr
    fin_cases hr <;>
      exact ⟨⟨by constructor <;> decide, by decide, by decide, by decide, by decide⟩, rfl, rfl, rfl⟩
  · intro addr ha
    fin_cases ha
    · exact ⟨contract_pending test_waiting_contract.1 _, rfl, by decide, by decide⟩
    · exact ⟨contract_pending test_waiting_contract.2 _, rfl, by decide, by decide⟩

/-- V5: one flipped bit of a frame that verifies. -/
theorem test_witness_oneByte : (0x7B#8) ≠ 0x7A#8 ∧
    verify ([0x05, 0x03, 0x02, 0x00] ++ 0x7B#8 :: [0x09, 0xA7]) = true := by decide

theorem test_witness_parse : 1 ≤ [0x03#8].length ∧ parseFrame (frameOf 0x01 [0x03]) = some (0x01, [0x03]) := by decide

/-- The shortest and the longest PDU. -/
theorem test_witness_sent : idle.params.Legal ∧ idle.fault = .clear ∧ idle.configured = true ∧ idle.rcvState = .idle ∧
    idle.sndState = .idle ∧ 1 ≤ [0x03#8].length ∧ [0x03#8].length ≤ idle.params.pduMax ∧
    (List.replicate 253 0x00#8).length ≤ idle.params.pduMax := by decide

/-- A one-byte frame, a frame of `BUF_SIZE` bytes and a frame of one byte more. -/
theorem test_witness_received : idle.params.Legal ∧ idle.fault = .clear ∧ idle.rcvState = .idle ∧
    idle.sndState ≠ .transmitting ∧ 1 ≤ [0x05#8].length ∧ (List.replicate 256 0x00#8).length ≤ idle.bufSize ∧
    idle.bufSize < (List.replicate 257 0x00#8).length := by decide

theorem test_witness_startWaits : idle.fault = .clear ∧ idle.configured = true ∧ idle.sndState ≠ .transmitting := by
  decide

/-- The operands at the ends of their ranges: `INIT`'s two refusals and its least rate, the last cell and the range that
ends there, the whole buffer, and the accepted `INIT` that configures. -/
theorem test_witness_afterReset : (0#24 = 0#24 ∨ 0#2 = 3#2) ∧ (1#24 = 0#24 ∨ 3#2 = 3#2) ∧ (1#24) ≠ 0#24 ∧
    (256#12).toNat ≤ 256 ∧ (255#12).toNat + (1#12).toNat ≤ 256 ∧ (0#12).toNat + (256#12).toNat ≤ 256 ∧
    (5#4).toNat ≤ 5 ∧ (255#12).toNat < 256 ∧
    (∃ t, exec (.init 1 0) { State.reset with cfgOk := true } = .next t ∧ t.configured = true) :=
  ⟨by decide, by decide, by decide, by decide, by decide, by decide, by decide, by decide, _, rfl, rfl⟩

end Sys2Proof.Tests
end

/-! Proofs. A list of checks that all pass, a stimulus that is not dropped, and reads past the buffer (R10). -/

namespace Sys2Proof.Machine

/-- The effect of a host operation that no check refuses (R237). -/
theorem guarded_of_all_false {cs : List (Bool × Status)} {s : State} {k : State → Result}
    (h : ∀ c ∈ cs, c.1 = false) : guarded cs s k = k s.quiet := by
  induction cs with
  | nil => rfl
  | cons c cs ih =>
    obtain ⟨hc, hcs⟩ := List.forall_mem_cons.mp h
    rw [guarded_cons, hc, ih hcs]
    rfl

theorem unlessFaulted_of_clear {s : State} (h : s.fault = .clear) (k : State → Result) :
    unlessFaulted s k = k s.quiet := by
  simp [unlessFaulted, h]

theorem exec_receive (s : State) : exec .receive s = execReceive s := rfl

theorem exec_txEmpty (s : State) : exec .txEmpty s = execTxEmpty s := rfl

/-- `RECEIVE` after its checks (R170): the read of `buf[0 .. rcv_pos-1]`, or the stop where that range leaves the
buffer. -/
theorem execReceive_of_unrefused {s : State} (hf : s.fault = .clear) (ho : s.owned = false)
    (hp : Config.minFrame ≤ s.rcvPos.toNat) :
    execReceive s =
      if s.bufSize < s.rcvPos.toNat then .fault (.cellOutsideBuffer s.bufSize)
      else if verify (s.memRead 0 s.rcvPos.toNat) then .next (s.quiet.answer .ok s.receiveWord)
      else .next (s.quiet.answer .invalid 0) := by
  have hchecks : ∀ c ∈ [(s.faulted, Status.faulted), (s.owned, Status.busy),
      (decide (s.rcvPos.toNat < Config.minFrame), Status.invalid)], c.1 = false := by
    simp [s.faulted_eq_false.mpr hf, ho, hp]
  rw [execReceive, guarded_of_all_false hchecks, State.memRead_quiet]
  rfl

/-- `TX_EMPTY` while transmitting with bytes remaining (R201). -/
theorem execTxEmpty_of_remaining {s : State} (hf : s.fault = .clear) (ht : s.sndState = .transmitting)
    (hc : s.sndCnt ≠ 0#12) : execTxEmpty s = sendNextByte s.quiet := by
  simp [execTxEmpty, unlessFaulted_of_clear hf, ht, hc]

theorem sendNextByte_of_outside {s : State} (h : s.bufSize ≤ s.sndPtr.toNat) :
    sendNextByte s = .fault (.cellOutsideBuffer s.sndPtr.toNat) :=
  if_neg (Nat.not_lt.mpr h)

/-- Settles O42: neither operation is refused in such a state, so each reaches the range check of its read, which
stops the machine. -/
theorem readOutsideTheBufferStops : Obligations.ReadOutsideTheBufferStops := by
  refine ⟨fun s hf hr ht hp hb => ?receive, fun s hf ht hc hb => ?txEmpty⟩
  case receive =>
    rw [exec_receive, execReceive_of_unrefused hf (s.owned_eq_false.mpr ⟨hr, ht⟩) hp, if_pos hb]
  case txEmpty =>
    rw [exec_txEmpty, execTxEmpty_of_remaining hf ht hc]
    exact sendNextByte_of_outside hb

end Sys2Proof.Machine

/-! Proofs. The invariants of R52 are kept by each named update of the state, so by every outcome of an operation, so
by every step. -/

namespace Sys2Proof.Machine

theorem State.bufSize_eq (s : State) : s.bufSize = s.params.pduMax + 3 := rfl

/-- R7: every offset and every count of a frame fits in `W_POS` bits. -/
theorem State.Inv.bufSize_lt {s : State} (h : s.Inv) : s.bufSize < 4096 := by
  have hp := h.paramsLegal.2
  rw [s.bufSize_eq]
  omega

/-- R52 item 7, read backwards. -/
theorem State.Inv.configured_of_transmitting {s : State} (h : s.Inv) (hs : s.sndState = .transmitting) :
    s.configured = true := by
  by_contra hc
  obtain ⟨hidle, -⟩ := h.unconfigured (by simpa using hc)
  simp [hs] at hidle

/-- R175: what `SEND` loads into the pointer and the count adds up to the frame's length, without wrap. -/
theorem sndTotal_startSending {s : State} (hp : s.params.Legal) {len : Pos} (hlen : len.toNat ≤ s.params.pduMax) :
    (s.startSending len).sndPtr.toNat + (s.startSending len).sndCnt.toNat = len.toNat + 3 := by
  obtain ⟨-, hmax⟩ := hp
  simp only [State.startSending_sndPtr, State.startSending_sndCnt, BitVec.ofNat_eq_ofNat, BitVec.toNat_ofNat]
  omega

/-- R201: one byte moves from the count to the pointer, without wrap. -/
theorem sndTotal_advance {ptr cnt : Pos} (hptr : ptr.toNat < 4095) (hcnt : cnt ≠ 0#12) :
    (ptr + 1).toNat + (cnt - 1).toNat = ptr.toNat + cnt.toNat := by
  bv_omega

/-- R192: a position inside the buffer moves on without wrap. -/
theorem toNat_succ_le {p : Pos} {n : Nat} (hp : p.toNat < n) (hn : n < 4096) : (p + 1).toNat ≤ n := by
  bv_omega

/-- R206: the byte that goes out next, when one is left, is not past the buffer. -/
theorem State.Inv.sndPtr_lt_bufSize {s : State} (h : s.Inv) (hcnt : s.sndCnt ≠ 0#12) :
    s.sndPtr.toNat < s.bufSize := by
  have hin := h.sndInside
  bv_omega

section Updates

variable {s : State} (h : s.Inv)
include h

theorem State.Inv.quiet : s.quiet.Inv := { h with }

theorem State.Inv.answer (st : Status) (d : Word) : (s.answer st d).Inv := { h with }

theorem State.Inv.emitConfig (r : Baud) (p : Parity) : (s.emitConfig r p).Inv := { h with }

theorem State.Inv.emitTx (b : Byte) : (s.emitTx b).Inv := { h with }

theorem State.Inv.raiseAssert (c : AssertLatch) : (s.raiseAssert c).Inv := { h with }

theorem State.Inv.presented (es : List PortEvent) (c : Bool) : { s with pending := es, cfgOk := c }.Inv := { h with }

/-- R150: an accepted `INIT` stores the rate with the threshold computed from it. -/
theorem State.Inv.configure {r : Baud} (hr : r ≠ 0#24) (p : Parity) : (s.configure r p).Inv :=
  { h with
    unconfigured := by simp
    t35OfBaud := fun _ => ⟨hr, rfl⟩ }

theorem State.Inv.setCell {off : Nat} (hoff : off < s.bufSize) (v : Byte) : (s.setCell off v).Inv :=
  { h with
    bufCanonical := Memory.store_wf _ _ _ h.bufCanonical
    bufInside := fun c hc => by
      rcases Memory.mem_store _ _ _ _ hc with rfl | hc
      · exact hoff
      · exact h.bufInside c hc }

/-- R52 items 6 and 8: the inter-frame timer may run whenever the receiver has something to wait for. -/
theorem State.Inv.armInterFrame (hr : s.rcvState ≠ .idle) (thr : Word) : (s.arm .interFrameDelay thr).Inv :=
  { h with
    respondTiming := by simp
    convertTiming := by simp
    armedIsWaiting := fun _ => .inl hr }

theorem State.Inv.disarm : s.disarm.Inv :=
  { h with
    respondTiming := by simp
    convertTiming := by simp
    armedIsWaiting := by simp }

/-- R52 items 1 and 5 ask nothing of a line whose transmit enable is off. -/
theorem State.Inv.transmitOff (rx : Bool) : { s with rxEn := rx, txEn := false }.Inv :=
  { h with
    halfDuplex := by simp
    txWhileTransmitting := by simp
    unconfigured := fun hc => by
      obtain ⟨hs, -, hptr, hcnt⟩ := h.unconfigured hc
      exact ⟨hs, rfl, hptr, hcnt⟩ }

/-- The receiver may leave Idle whatever the timer measures. -/
theorem State.Inv.receiver {r : RcvState} (hr : r ≠ .idle) {p : Pos} (hp : p.toNat ≤ s.bufSize) :
    { s with rcvState := r, rcvPos := p }.Inv :=
  { h with
    rcvPosInside := hp
    armedIsWaiting := fun _ => .inl hr }

theorem State.Inv.putFrame (addr : Byte) {len : Pos} (hlen : len.toNat ≤ s.params.pduMax) :
    (s.putFrame addr len).Inv := by
  rw [State.putFrame_eq]
  exact { h with
    bufCanonical := State.putFrame_wf _ _ _ h.bufCanonical
    bufInside := State.putFrame_inside _ _ _ _ h.bufInside (Nat.add_le_add_right hlen 3) }

/-- R175: `SEND` from Idle. The frame fits in the buffer, and no follow-up timer was running. -/
theorem State.Inv.startSending (hc : s.configured = true) {len : Pos} (hlen : len.toNat ≤ s.params.pduMax)
    (hs : s.sndState = .idle) : (s.startSending len).Inv :=
  { h with
    halfDuplex := by simp
    sndInside := by
      rw [sndTotal_startSending h.paramsLegal hlen]
      exact Nat.add_le_add_right hlen 3
    txWhileTransmitting := fun _ => rfl
    respondTiming := fun ha hm => by simpa [hs] using h.respondTiming ha hm
    convertTiming := fun ha hm => by simpa [hs] using h.convertTiming ha hm
    armedIsWaiting := by simp
    unconfigured := fun hn => by simp [hc] at hn }

theorem State.Inv.advance (hs : s.sndState = .transmitting) (hcnt : s.sndCnt ≠ 0#12) :
    { s with sndPtr := s.sndPtr + 1, sndCnt := s.sndCnt - 1 }.Inv :=
  { h with
    sndInside := by
      have hptr := Nat.lt_of_lt_of_le (h.sndPtr_lt_bufSize hcnt) (Nat.le_of_lt_succ h.bufSize_lt)
      rw [sndTotal_advance hptr hcnt]
      exact h.sndInside
    unconfigured := fun hn => by simp [h.configured_of_transmitting hs] at hn }

/-- R202: the line turns around, and the follow-up timer that runs is the one of the broadcast mark. -/
theorem State.Inv.completed (hs : s.sndState = .transmitting) {bcast : Bool} {m : TmrMode}
    (hm : m = if bcast then .convertDelay else .respondTimeout) (thr : Word) :
    ({ s with isBcast := bcast, txEn := false, rxEn := true, sndState := .waitFollowUp }.arm m thr).Inv :=
  { h with
    halfDuplex := by simp
    txWhileTransmitting := by simp
    respondTiming := by cases bcast <;> simp [hm]
    convertTiming := by cases bcast <;> simp [hm]
    armedIsWaiting := by simp
    unconfigured := fun hn => by simp [h.configured_of_transmitting hs] at hn }

/-- R210: an expiry leaves both state machines Idle with nothing armed. -/
theorem State.Inv.expired (hs : s.sndState ≠ .transmitting) (e : Option Event) :
    ({ s with rcvState := .idle, sndState := .idle }.disarm.emitEvent e).Inv :=
  { h with
    txWhileTransmitting := fun ht => absurd (h.txWhileTransmitting ht) hs
    respondTiming := by simp
    convertTiming := by simp
    armedIsWaiting := by simp
    unconfigured := fun hc => ⟨rfl, (h.unconfigured hc).2⟩ }

end Updates

/-- R52, at every outcome of every operation. -/
theorem Did.inv {i : Instr} {s t : State} (hd : Did i s t) (h : s.Inv) : t.Inv := by
  have hq := h.quiet
  cases hd with
  | refused => exact hq.answer _ _
  | ignored => exact hq
  | configured q _ hr => exact ((hq.emitConfig _ _).configure hr q).answer _ _
  | portError => exact (hq.emitConfig _ _).answer _ _
  | started =>
    have hinit := (hq.transmitOff true).receiver (r := .init) (by simp) h.rcvPosInside
    exact (hinit.armInterFrame (by simp) _).answer _ _
  | stopped => exact (hq.transmitOff false).disarm.answer _ _
  | sent _ hc _ hlen _ hs =>
    exact ((hq.putFrame _ hlen).startSending (by simpa using hc) (by simpa using hlen) (by simpa using hs)).answer _ _
  | received => exact hq.answer _ _
  | crc => exact hq.answer _ _
  | verified => exact hq.answer _ _
  | bufRead => exact hq.answer _ _
  | bufWritten _ hb => exact (hq.setCell hb _).answer _ _
  | regRead => exact hq.answer _ _
  | dropped _ hr => exact hq.armInterFrame (by rcases hr with hr | hr <;> simp [hr]) _
  | @firstByte b =>
    have hput := (hq.setCell (Nat.succ_pos _) b).receiver (r := .receiving) (by simp) (p := 1) (Nat.le_add_left 1 _)
    exact hput.armInterFrame (by simp) _
  | @nextByte b _ _ hr hp =>
    have hput := (hq.setCell hp b).receiver (r := s.rcvState) (by simp [hr]) (toNat_succ_le hp h.bufSize_lt)
    exact hput.armInterFrame (by simp [hr]) _
  | oversized =>
    exact (hq.receiver (r := .error) (by simp) h.rcvPosInside).armInterFrame (by simp) _
  | turnedAround => exact hq.transmitOff true
  | emitted _ hs hcnt => exact (hq.advance hs hcnt).emitTx _
  | broadcastDone _ hs => exact hq.completed hs (bcast := true) rfl _
  | unicastDone _ hs => exact hq.completed hs (bcast := false) rfl _
  | txAssert => exact hq.raiseAssert _
  | expired _ hs => exact hq.expired hs _
  | tmrAssert => exact hq.raiseAssert _

/-- R51, R52. -/
theorem State.inv_reset : State.reset.Inv where
  paramsLegal := by decide
  bufCanonical := .nil
  bufInside := by simp [State.reset]
  halfDuplex := by simp [State.reset]
  rcvPosInside := Nat.zero_le _
  sndInside := Nat.zero_le _
  txWhileTransmitting := by simp [State.reset]
  respondTiming := by simp [State.reset]
  convertTiming := by simp [State.reset]
  unconfigured := fun _ => ⟨rfl, rfl, rfl, rfl⟩
  armedIsWaiting := by simp [State.reset]
  t35OfBaud := by simp [State.reset]

/-- A reset serves every legal choice of `PDU_MAX`, not only the one of `State.reset`. -/
theorem State.Inv.applyReset {s : State} (h : s.Inv) : s.applyReset.Inv :=
  { State.inv_reset with
    paramsLegal := h.paramsLegal
    bufInside := by simp
    rcvPosInside := Nat.zero_le _
    sndInside := Nat.zero_le _ }

/-- R52, whatever is presented at the ports. -/
theorem step_inv {s t : State} (h : s.Inv) (hstep : step s = .next t) : t.Inv := by
  rcases step_cases hstep with ⟨-, rfl⟩ | ⟨e, rest, -, ⟨-, rfl⟩ | ⟨_, _, _, -, -, rfl⟩ | ⟨i, -, hd⟩⟩
  · exact h.quiet
  · exact (h.presented rest s.cfgOk).applyReset
  · exact (h.presented rest s.cfgOk).quiet.answer _ _
  · exact hd.inv (h.presented rest _)

/-- Settles O40: the invariants survive each of the updates that the outcomes of a step are composed of. -/
theorem everyStepKeepsTheInvariants : Obligations.EveryStepKeepsTheInvariants :=
  fun _ _ => step_inv

end Sys2Proof.Machine

/-! Proofs. Which outcomes of an operation move a state machine, set the latch or write a register or a cell. -/

namespace Sys2Proof.Machine

/-- R41, R203, R211: the two outcomes that set the latch. -/
theorem Did.fault_causes {i : Instr} {s t : State} (hd : Did i s t) (hne : t.fault ≠ s.fault) :
    s.fault = .clear ∧
      ((i = .tmrExp ∧ s.sndState = .transmitting ∧ t.fault = .timerWhileTransmitting) ∨
       (i = .txEmpty ∧ s.sndState = .waitFollowUp ∧ t.fault = .txEmptyInWaitFollowUp)) := by
  cases hd with
  | tmrAssert hf hs => exact ⟨hf, .inl ⟨rfl, hs, rfl⟩⟩
  | txAssert hf hs => exact ⟨hf, .inr ⟨rfl, hs, rfl⟩⟩
  | _ => simp at hne

/-- R38: the outcomes that move the receiver. -/
theorem Did.rcvState_moves {i : Instr} {s t : State} (hd : Did i s t) (hne : t.rcvState ≠ s.rcvState) :
    (i = .start ∧ t.rcvState = .init) ∨
    (∃ b, i = .rxByte b ∧ s.rcvState = .idle ∧ t.rcvState = .receiving) ∨
    (∃ b, i = .rxByte b ∧ s.rcvState = .receiving ∧ s.bufSize ≤ s.rcvPos.toNat ∧ t.rcvState = .error) ∨
    (i = .tmrExp ∧ t.rcvState = .idle) := by
  cases hd with
  | started => exact .inl ⟨rfl, rfl⟩
  | firstByte _ hr => exact .inr (.inl ⟨_, rfl, hr, rfl⟩)
  | oversized _ hr hp => exact .inr (.inr (.inl ⟨_, rfl, hr, hp, rfl⟩))
  | expired => exact .inr (.inr (.inr ⟨rfl, rfl⟩))
  | _ => simp at hne

/-- R39: the outcomes that move the transmitter. -/
theorem Did.sndState_moves {i : Instr} {s t : State} (hd : Did i s t) (hne : t.sndState ≠ s.sndState) :
    (∃ addr len, i = .send addr len ∧ s.sndState = .idle ∧ s.rcvState = .idle ∧ t.sndState = .transmitting) ∨
    (i = .txEmpty ∧ s.sndState = .transmitting ∧ s.sndCnt = 0#12 ∧ t.sndState = .waitFollowUp) ∨
    (i = .tmrExp ∧ s.sndState = .waitFollowUp ∧ t.sndState = .idle) := by
  cases hd with
  | sent _ _ _ _ hr hs => exact .inl ⟨_, _, rfl, hs, hr, rfl⟩
  | broadcastDone _ hs hc => exact .inr (.inl ⟨rfl, hs, hc, rfl⟩)
  | unicastDone _ hs hc => exact .inr (.inl ⟨rfl, hs, hc, rfl⟩)
  | expired _ hs =>
    refine .inr (.inr ⟨rfl, ?_, rfl⟩)
    cases h : s.sndState with
    | idle => simp [h] at hne
    | transmitting => exact absurd h hs
    | waitFollowUp => rfl
  | _ => simp at hne

/-- R10: a store changes the cell it names and no other. -/
theorem State.eq_of_setCell_changes {s : State} {off a : Nat} {v : Byte} (h : (s.setCell off v).cell a ≠ s.cell a) :
    a = off := by
  by_contra ha
  exact h (State.cell_setCell_ne s off a v ha)

/-- R30: the outcomes that write a cell. -/
theorem Did.cell_writers {i : Instr} {s t : State} (hd : Did i s t) {a : Nat} (hne : t.cell a ≠ s.cell a) :
    (∃ off data, i = .bufWr off data ∧ a = off.toNat) ∨
    (∃ addr len, i = .send addr len ∧ (a = 0 ∨ a = len.toNat + 1 ∨ a = len.toNat + 2)) ∨
    (∃ b, i = .rxByte b ∧ ((s.rcvState = .idle ∧ a = 0) ∨ (s.rcvState = .receiving ∧ a = s.rcvPos.toNat))) := by
  cases hd with
  | bufWritten => exact .inl ⟨_, _, rfl, State.eq_of_setCell_changes (s := s.quiet) hne⟩
  | sent =>
    refine .inr (.inl ⟨_, _, rfl, ?_⟩)
    by_contra ha
    simp only [not_or] at ha
    exact hne (by simp [State.cell_putFrame, ha])
  | firstByte _ hr => exact .inr (.inr ⟨_, rfl, .inl ⟨hr, State.eq_of_setCell_changes (s := s.quiet) hne⟩⟩)
  | nextByte _ hr => exact .inr (.inr ⟨_, rfl, .inr ⟨hr, State.eq_of_setCell_changes (s := s.quiet) hne⟩⟩)
  | _ => exact absurd rfl hne

/-- R48: `INIT` alone writes the configuration. -/
theorem Did.config_writers {i : Instr} {s t : State} (hd : Did i s t)
    (hne : t.configured ≠ s.configured ∨ t.baud ≠ s.baud ∨ t.parity ≠ s.parity ∨ t.t35Us ≠ s.t35Us) :
    ∃ baud parity, i = .init baud parity := by
  cases hd with
  | configured => exact ⟨_, _, rfl⟩
  | _ => simp at hne

theorem Did.tmrThreshold_writers {i : Instr} {s t : State} (hd : Did i s t)
    (hne : t.tmrMode ≠ s.tmrMode ∨ t.tmrThr ≠ s.tmrThr) : i = .start ∨ (∃ b, i = .rxByte b) ∨ i = .txEmpty := by
  cases hd with
  | started => exact .inl rfl
  | dropped => exact .inr (.inl ⟨_, rfl⟩)
  | firstByte => exact .inr (.inl ⟨_, rfl⟩)
  | nextByte => exact .inr (.inl ⟨_, rfl⟩)
  | oversized => exact .inr (.inl ⟨_, rfl⟩)
  | broadcastDone => exact .inr (.inr rfl)
  | unicastDone => exact .inr (.inr rfl)
  | _ => simp at hne

theorem Did.tmrArmed_writers {i : Instr} {s t : State} (hd : Did i s t) (hne : t.tmrArmed ≠ s.tmrArmed) :
    i = .start ∨ i = .stop ∨ (∃ b, i = .rxByte b) ∨ i = .txEmpty ∨ i = .tmrExp := by
  cases hd with
  | started => exact .inl rfl
  | stopped => exact .inr (.inl rfl)
  | dropped => exact .inr (.inr (.inl ⟨_, rfl⟩))
  | firstByte => exact .inr (.inr (.inl ⟨_, rfl⟩))
  | nextByte => exact .inr (.inr (.inl ⟨_, rfl⟩))
  | oversized => exact .inr (.inr (.inl ⟨_, rfl⟩))
  | broadcastDone => exact .inr (.inr (.inr (.inl rfl)))
  | unicastDone => exact .inr (.inr (.inr (.inl rfl)))
  | expired => exact .inr (.inr (.inr (.inr rfl)))
  | _ => simp at hne

theorem Did.rcvPos_writers {i : Instr} {s t : State} (hd : Did i s t) (hne : t.rcvPos ≠ s.rcvPos) :
    ∃ b, i = .rxByte b := by
  cases hd with
  | firstByte => exact ⟨_, rfl⟩
  | nextByte => exact ⟨_, rfl⟩
  | _ => simp at hne

theorem Did.lineEnable_writers {i : Instr} {s t : State} (hd : Did i s t)
    (hne : t.rxEn ≠ s.rxEn ∨ t.txEn ≠ s.txEn) :
    i = .start ∨ i = .stop ∨ (∃ addr len, i = .send addr len) ∨ i = .txEmpty := by
  cases hd with
  | started => exact .inl rfl
  | stopped => exact .inr (.inl rfl)
  | sent => exact .inr (.inr (.inl ⟨_, _, rfl⟩))
  | turnedAround => exact .inr (.inr (.inr rfl))
  | broadcastDone => exact .inr (.inr (.inr rfl))
  | unicastDone => exact .inr (.inr (.inr rfl))
  | _ => simp at hne

theorem Did.isBcast_writers {i : Instr} {s t : State} (hd : Did i s t) (hne : t.isBcast ≠ s.isBcast) :
    i = .txEmpty := by
  cases hd with
  | broadcastDone => rfl
  | unicastDone => rfl
  | _ => simp at hne

/-- R176, R201: the transmit counters are loaded by the `SEND` that is accepted, moved on by `TX_EMPTY`, and left
alone by every other outcome. -/
theorem Did.sndCounters_cases {i : Instr} {s t : State} (hd : Did i s t) :
    (∃ addr len, i = .send addr len ∧ len.toNat ≤ s.params.pduMax ∧ t.out.rsp = some ⟨.ok, 0⟩ ∧
      t.sndPtr = (s.startSending len).sndPtr ∧ t.sndCnt = (s.startSending len).sndCnt) ∨
    (i = .txEmpty ∧ s.sndCnt ≠ 0#12 ∧ s.sndPtr.toNat < s.bufSize ∧
      t.sndPtr = s.sndPtr + 1 ∧ t.sndCnt = s.sndCnt - 1) ∨
    (t.sndPtr = s.sndPtr ∧ t.sndCnt = s.sndCnt ∧
      ∀ addr len r, i = .send addr len → t.out.rsp = some r → r.status ≠ .ok) := by
  cases hd with
  | sent _ _ _ hlen => exact .inl ⟨_, _, rfl, hlen, rfl, rfl, rfl⟩
  | emitted _ _ hcnt hptr => exact .inr (.inl ⟨rfl, hcnt, hptr, rfl, rfl⟩)
  | refused st _ hne =>
    refine .inr (.inr ⟨rfl, rfl, fun _ _ r _ hr => ?_⟩)
    obtain rfl := Option.some.inj hr
    exact hne
  | ignored ha =>
    refine .inr (.inr ⟨rfl, rfl, ?_⟩)
    rintro addr len r rfl
    exact absurd rfl ha
  | _ => exact .inr (.inr ⟨rfl, rfl, by simp⟩)

theorem Did.sndCounters_writers {i : Instr} {s t : State} (hd : Did i s t)
    (hne : t.sndPtr ≠ s.sndPtr ∨ t.sndCnt ≠ s.sndCnt) : (∃ addr len, i = .send addr len) ∨ i = .txEmpty := by
  rcases hd.sndCounters_cases with ⟨addr, len, hi, -⟩ | ⟨hi, -⟩ | ⟨hptr, hcnt, -⟩
  · exact .inl ⟨addr, len, hi⟩
  · exact .inr hi
  · simp [hptr, hcnt] at hne

/-- No operation writes the fields that are the model's own (log entries 1, 4, 6, 7). -/
theorem Did.frame {i : Instr} {s t : State} (hd : Did i s t) :
    t.params = s.params ∧ t.resetEpoch = s.resetEpoch ∧ t.pending = s.pending ∧ t.cfgOk = s.cfgOk := by
  cases hd with
  | sent => simp
  | _ => exact ⟨rfl, rfl, rfl, rfl⟩

/-- R280: serving a clock edge with `rst` high. -/
theorem step_reset {s : State} {rest : List PortEvent} (hp : s.pending = .reset :: rest) :
    step s = .next { s with pending := rest }.applyReset :=
  step_cons hp

theorem eq_applyReset_of_step {s t : State} {rest : List PortEvent} (hp : s.pending = .reset :: rest)
    (h : step s = .next t) : t = { s with pending := rest }.applyReset :=
  Host.Outcome.next.inj (h.symm.trans (step_reset hp))

/-- R236: nothing but reset clears the latch. -/
theorem step_fault_sticky {s t : State} (hstep : step s = .next t) (hf : s.fault ≠ .clear)
    (hp : ∀ rest, s.pending ≠ .reset :: rest) : t.fault = s.fault := by
  rcases step_cases hstep with ⟨-, rfl⟩ | ⟨e, rest, he, ⟨rfl, -⟩ | ⟨_, _, _, -, -, rfl⟩ | ⟨i, -, hd⟩⟩
  · rfl
  · exact absurd he (hp rest)
  · rfl
  · by_contra hne
    exact hf (hd.fault_causes hne).1

/-- Settles O30: two outcomes write the latch, both from a clear one. -/
theorem faultLatchIsStickyAndHasTwoCauses : Obligations.FaultLatchIsStickyAndHasTwoCauses :=
  ⟨fun _ _ _ h => (exec_did h).fault_causes, fun _ _ => step_fault_sticky⟩

/-- R210: an expiry that raises no fault. -/
theorem exec_tmrExp_of_not_transmitting {s : State} (hf : s.fault = .clear) (hs : s.sndState ≠ .transmitting) :
    exec .tmrExp s =
      .next ({ s.quiet with rcvState := .idle, sndState := .idle }.disarm.emitEvent s.quiet.expiryEvent) := by
  simp [exec, execTmrExp, unlessFaulted_of_clear hf, hs]

/-- Settles O31, by the outcomes of an operation and by the reset state. -/
theorem receiverMovesOnlyAsListed : Obligations.ReceiverMovesOnlyAsListed := by
  refine ⟨fun _ _ _ hp h => congrArg State.rcvState (eq_applyReset_of_step hp h),
    fun _ _ _ h => (exec_did h).rcvState_moves, ?expiry⟩
  case expiry =>
    rintro _ s hf hs rfl
    exact ⟨_, exec_tmrExp_of_not_transmitting hf hs, rfl⟩

/-- Settles O32, by the outcomes of an operation and by the reset state. -/
theorem transmitterMovesOnlyAsListed : Obligations.TransmitterMovesOnlyAsListed :=
  ⟨fun _ _ _ hp h => congrArg State.sndState (eq_applyReset_of_step hp h), fun _ _ _ h => (exec_did h).sndState_moves⟩

/-- Settles O35, by the outcomes of an operation. -/
theorem cellsHaveThreeWriters : Obligations.CellsHaveThreeWriters :=
  fun _ _ _ _ h => (exec_did h).cell_writers

theorem Did.rcvState_writers {i : Instr} {s t : State} (hd : Did i s t) (hne : t.rcvState ≠ s.rcvState) :
    i = .start ∨ (∃ b, i = .rxByte b) ∨ i = .tmrExp := by
  rcases hd.rcvState_moves hne with ⟨hi, -⟩ | ⟨b, hi, -⟩ | ⟨b, hi, -⟩ | ⟨hi, -⟩
  · exact .inl hi
  · exact .inr (.inl ⟨b, hi⟩)
  · exact .inr (.inl ⟨b, hi⟩)
  · exact .inr (.inr hi)

theorem Did.sndState_writers {i : Instr} {s t : State} (hd : Did i s t) (hne : t.sndState ≠ s.sndState) :
    (∃ addr len, i = .send addr len) ∨ i = .txEmpty ∨ i = .tmrExp := by
  rcases hd.sndState_moves hne with ⟨addr, len, hi, -⟩ | ⟨hi, -⟩ | ⟨hi, -⟩
  · exact .inl ⟨addr, len, hi⟩
  · exact .inr (.inl hi)
  · exact .inr (.inr hi)

theorem Did.fault_writers {i : Instr} {s t : State} (hd : Did i s t) (hne : t.fault ≠ s.fault) :
    i = .txEmpty ∨ i = .tmrExp := by
  rcases (hd.fault_causes hne).2 with ⟨hi, -⟩ | ⟨hi, -⟩
  · exact .inr hi
  · exact .inl hi

/-- Settles O36, register by register. -/
theorem registersHaveTheirWritersOnly : Obligations.RegistersHaveTheirWritersOnly := by
  intro i s t h
  have hd := exec_did h
  exact ⟨hd.config_writers, hd.rcvState_writers, hd.sndState_writers, hd.tmrThreshold_writers, hd.tmrArmed_writers,
    hd.rcvPos_writers, hd.sndCounters_writers, hd.lineEnable_writers, hd.isBcast_writers, hd.fault_writers, hd.frame⟩

/-- Settles O38: under the invariants neither the load nor the move of the counters wraps. -/
theorem frameLengthIsKeptWhileSending : Obligations.FrameLengthIsKeptWhileSending := by
  intro i s t hinv h
  rcases (exec_did h).sndCounters_cases with
    ⟨addr, len, rfl, hlen, hr, hptr, hcnt⟩ | ⟨rfl, hne, hin, hptr, hcnt⟩ | ⟨hptr, hcnt, hrefused⟩
  · refine ⟨fun addr' len' r hi _ _ => ?_, fun hno => absurd rfl (hno addr len _ rfl hr)⟩
    obtain ⟨rfl, rfl⟩ := Instr.send.inj hi
    rw [hptr, hcnt]
    exact sndTotal_startSending hinv.paramsLegal hlen
  · refine ⟨by simp, fun _ => ?_⟩
    rw [hptr, hcnt]
    exact sndTotal_advance (Nat.lt_of_lt_of_le hin (Nat.le_of_lt_succ hinv.bufSize_lt)) hne
  · exact ⟨fun addr len r hi hr hok => absurd hok (hrefused addr len r hi hr), fun _ => by rw [hptr, hcnt]⟩

end Sys2Proof.Machine

/-! Proofs. Every operation goes on in a state with the invariants; the reset state; the code tables. -/

namespace Sys2Proof.Machine

/-- A refused host operation has a next state, so an accepted one decides (R230). -/
theorem guarded_next {cs : List (Bool × Status)} {s : State} {k : State → Result} (hk : ∃ t, k s.quiet = .next t) :
    ∃ t, guarded cs s k = .next t := by
  induction cs with
  | nil => exact hk
  | cons c cs ih =>
    obtain ⟨b, st⟩ := c
    cases b with
    | true => exact ⟨_, rfl⟩
    | false => exact ih

theorem unlessFaulted_next {s : State} {k : State → Result} (hk : ∃ t, k s.quiet = .next t) :
    ∃ t, unlessFaulted s k = .next t := by
  unfold unlessFaulted
  split
  · exact hk
  · exact ⟨_, rfl⟩

theorem execInit_next (r : Baud) (p : BitVec 2) (s : State) : ∃ t, execInit r p s = .next t := by
  refine guarded_next ?_
  cases Parity.ofCode p with
  | none => exact ⟨_, rfl⟩
  | some q =>
    unfold initWith
    cases s.quiet.cfgOk <;> exact ⟨_, rfl⟩

theorem execRdReg_next (idx : BitVec 4) (s : State) : ∃ t, execRdReg idx s = .next t := by
  unfold execRdReg
  cases StatusReg.ofIdx idx <;> exact ⟨_, rfl⟩

/-- R52 item 2: `RECEIVE` reads inside the buffer. -/
theorem execReceive_next {s : State} (hpos : s.rcvPos.toNat ≤ s.bufSize) : ∃ t, execReceive s = .next t := by
  refine guarded_next ?_
  rw [State.quiet_bufSize, State.quiet_rcvPos, if_neg (Nat.not_lt.mpr hpos)]
  split <;> exact ⟨_, rfl⟩

/-- R52 item 3, R206: `TX_EMPTY` reads inside the buffer. -/
theorem execTxEmpty_next {s : State} (hptr : s.sndCnt ≠ 0#12 → s.sndPtr.toNat < s.bufSize) :
    ∃ t, execTxEmpty s = .next t := by
  refine unlessFaulted_next ?_
  cases hs : s.quiet.sndState with
  | idle => exact ⟨_, rfl⟩
  | waitFollowUp => exact ⟨_, rfl⟩
  | transmitting =>
    by_cases hc : s.sndCnt = 0#12
    · exact ⟨_, if_pos (by simpa using hc)⟩
    · refine ⟨_, (if_neg (by simpa using hc)).trans (if_pos (hptr hc))⟩

theorem execRxByte_next (b : Byte) (s : State) : ∃ t, execRxByte b s = .next t :=
  unlessFaulted_next ⟨_, rfl⟩

theorem execTmrExp_next (s : State) : ∃ t, execTmrExp s = .next t := by
  refine unlessFaulted_next ?_
  split <;> exact ⟨_, rfl⟩

/-- R65: in a state with the invariants every operation goes on. -/
theorem State.Inv.exec_next {s : State} (h : s.Inv) (i : Instr) : ∃ t, exec i s = .next t := by
  cases i with
  | init r p => exact execInit_next r p s
  | start => exact guarded_next ⟨_, rfl⟩
  | stop => exact guarded_next ⟨_, rfl⟩
  | send addr len => exact guarded_next ⟨_, rfl⟩
  | receive => exact execReceive_next h.rcvPosInside
  | crc16 off len => exact guarded_next ⟨_, rfl⟩
  | verify len => exact guarded_next ⟨_, rfl⟩
  | bufRd off => exact guarded_next ⟨_, rfl⟩
  | bufWr off data => exact guarded_next ⟨_, rfl⟩
  | rdReg idx => exact execRdReg_next idx s
  | rxByte b => exact execRxByte_next b s
  | txEmpty => exact execTxEmpty_next h.sndPtr_lt_bufSize
  | tmrExp => exact execTmrExp_next s

theorem State.Inv.serve_next {s : State} (h : s.Inv) (e : PortEvent) : ∃ t, serve e s = .next t := by
  cases e with
  | reset => exact ⟨_, rfl⟩
  | command w c =>
    simp only [serve, serveCommand]
    split
    · exact (h.presented s.pending c).exec_next _
    · exact ⟨_, rfl⟩
  | rxValid b => exact h.exec_next (.rxByte b)
  | txEmpty => exact h.exec_next .txEmpty
  | tmrExpired a => exact h.exec_next .tmrExp

/-- Settles O41: the two reads that could stop the machine stay inside the buffer. -/
theorem invariantStatesAlwaysStep : Obligations.InvariantStatesAlwaysStep := by
  intro s h
  cases hp : s.pending with
  | nil => exact ⟨_, step_nil hp⟩
  | cons e rest =>
    rw [step_cons hp]
    exact (h.presented rest s.cfgOk).serve_next e

/-- Settles O1. No cell is listed after a reset, so each reads as the unknown byte of the new one (U1). -/
theorem resetPutsEveryRegisterAtItsResetValue : Obligations.ResetPutsEveryRegisterAtItsResetValue :=
  ⟨fun _ _ hp => ⟨_, step_reset hp, rfl, fun _ => rfl⟩, rfl⟩

/-- Settles O39: nothing is transmitted and no timer runs, so what `ContractInv` adds holds too. -/
theorem invariantsHoldAtReset : Obligations.InvariantsHoldAtReset where
  left := State.inv_reset
  right :=
    { inv := State.inv_reset
      safe := rfl
      transmitting := by simp [State.reset]
      synchronising := fun _ => rfl
      frameTiming := by simp [State.reset] }

/-- R23: the code table of `parity` is the inverse of `Parity.code`, with 3 unassigned. -/
theorem Parity.ofCode_code (q : Parity) : Parity.ofCode q.code = some q := by
  cases q <;> rfl

theorem Parity.ofCode_eq_none (p : BitVec 2) : Parity.ofCode p = Option.none ↔ p = 3#2 := by
  revert p
  decide

theorem SndState.code_ne_three (x : SndState) : x.code ≠ 3#2 := by
  cases x <;> decide

theorem TmrMode.code_ne_three (m : TmrMode) : m.code ≠ 3#2 := by
  cases m <;> decide

theorem Parity.code_ne_three (q : Parity) : q.code ≠ 3#2 := by
  cases q <;> decide

theorem AssertLatch.code_le_two (c : AssertLatch) : c.code.toNat ≤ 2 := by
  cases c <;> decide

/-- Settles O56: each enumeration by its values, the code tables by evaluation. -/
theorem reservedCodesAreNeverRead : Obligations.ReservedCodesAreNeverRead :=
  ⟨fun _ => ⟨SndState.code_ne_three _, TmrMode.code_ne_three _, Parity.code_ne_three _, AssertLatch.code_le_two _⟩,
    Parity.ofCode_eq_none, Parity.ofCode_code, rfl, rfl, rfl, rfl, rfl, rfl, rfl, rfl⟩

end Sys2Proof.Machine

/-! Proofs. The status words of R42 to R47, field by field. -/

namespace Sys2Proof.Machine

/-- R8: a field is read bit by bit. -/
theorem field_eq_of_getLsbD {w : Word} {lo n : Nat} {x : BitVec n}
    (h : ∀ k, k < n → w.getLsbD (lo + k) = x.getLsbD k) : field w lo n = x :=
  BitVec.eq_of_getLsbD_eq fun k hk => by simp [field, hk, h k hk]

/-- R42. -/
theorem State.statusWord_fields (s : State) :
    field s.statusWord 0 2 = s.rcvState.code ∧ field s.statusWord 2 2 = s.sndState.code ∧
    field s.statusWord 4 2 = s.tmrMode.code ∧
    field s.statusWord 12 4 = s.fault.code ∧ field s.statusWord 16 16 = 0 := by
  refine ⟨field_eq_of_getLsbD ?_, field_eq_of_getLsbD ?_, field_eq_of_getLsbD ?_, field_eq_of_getLsbD ?_,
    field_eq_of_getLsbD ?_⟩ <;> intro k hk <;> simp only [State.statusWord, BitVec.getLsbD_append] <;> grind

/-- R42. -/
theorem State.statusWord_flags (s : State) :
    s.statusWord.getLsbD 6 = s.tmrArmed ∧ s.statusWord.getLsbD 7 = s.rxEn ∧ s.statusWord.getLsbD 8 = s.txEn ∧
    s.statusWord.getLsbD 9 = s.isBcast ∧ s.statusWord.getLsbD 10 = s.configured ∧
    s.statusWord.getLsbD 11 = false := by
  simp only [State.statusWord, BitVec.getLsbD_append]
  simp

/-- R43. -/
theorem State.configWord_fields (s : State) :
    field s.configWord 0 24 = s.baud ∧ field s.configWord 24 2 = s.parity.code ∧ field s.configWord 26 6 = 0 := by
  refine ⟨field_eq_of_getLsbD ?_, field_eq_of_getLsbD ?_, field_eq_of_getLsbD ?_⟩ <;> intro k hk <;>
    simp only [State.configWord, BitVec.getLsbD_append] <;> grind

/-- R45. -/
theorem State.rcvPosWord_fields (s : State) : field s.rcvPosWord 0 12 = s.rcvPos ∧ field s.rcvPosWord 12 20 = 0 := by
  refine ⟨field_eq_of_getLsbD ?_, field_eq_of_getLsbD ?_⟩ <;> intro k hk <;>
    simp only [State.rcvPosWord, BitVec.getLsbD_append] <;> grind

/-- R46. -/
theorem State.sndWord_fields (s : State) :
    field s.sndWord 0 12 = s.sndPtr ∧ field s.sndWord 12 4 = 0 ∧ field s.sndWord 16 12 = s.sndCnt ∧
    field s.sndWord 28 4 = 0 := by
  refine ⟨field_eq_of_getLsbD ?_, field_eq_of_getLsbD ?_, field_eq_of_getLsbD ?_, field_eq_of_getLsbD ?_⟩ <;>
    intro k hk <;> simp only [State.sndWord, BitVec.getLsbD_append] <;> grind

/-- R47: the indices that name no register. -/
theorem StatusReg.ofIdx_eq_none {idx : BitVec 4} (h : 5 < idx.toNat) : StatusReg.ofIdx idx = none := by
  revert idx
  decide

/-- R162. -/
theorem answersOnly_rdReg {idx : BitVec 4} {r : StatusReg} (hr : StatusReg.ofIdx idx = some r) (s : State) :
    AnswersOnly (.rdReg idx) s .ok (s.readReg r) := by
  simp only [AnswersOnly, exec, execRdReg, hr]
  rfl

/-- R162. -/
theorem answersOnly_rdReg_invalidArg {idx : BitVec 4} (hr : StatusReg.ofIdx idx = none) (s : State) :
    AnswersOnly (.rdReg idx) s .invalidArg 0 := by
  simp only [AnswersOnly, exec, execRdReg, hr]
  rfl

/-- Settles O15, from the fields of each word. -/
theorem statusWordsReadFieldByField : Obligations.StatusWordsReadFieldByField := by
  intro s
  obtain ⟨hrcv, hsnd, hmode, hfault, hhigh⟩ := s.statusWord_fields
  obtain ⟨harmed, hrx, htx, hbcast, hconf, h11⟩ := s.statusWord_flags
  exact ⟨fun _ h => answersOnly_rdReg_invalidArg (StatusReg.ofIdx_eq_none h) s,
    ⟨_, answersOnly_rdReg (r := .status) rfl s, hrcv, hsnd, hmode, harmed, hrx, htx, hbcast, hconf, h11, hfault, hhigh⟩,
    ⟨_, answersOnly_rdReg (r := .config) rfl s, s.configWord_fields⟩,
    answersOnly_rdReg (r := .t35Us) rfl s,
    ⟨_, answersOnly_rdReg (r := .rcvPos) rfl s, s.rcvPosWord_fields⟩,
    ⟨_, answersOnly_rdReg (r := .snd) rfl s, s.sndWord_fields⟩,
    answersOnly_rdReg (r := .tmrThr) rfl s⟩

end Sys2Proof.Machine

/-! Proofs. The step of a presented event is the operation that the event asks for (R66, R91, R103). -/

namespace Sys2Proof.Machine

/-- R66. -/
theorem step_of_asks {s : State} {e : PortEvent} {rest : List PortEvent} {i : Instr} (hp : s.pending = e :: rest)
    (hi : e.Asks i) : step s = exec i { s with pending := rest, cfgOk := e.cfgOkAfter s } := by
  rw [step_cons hp, serve_of_asks hi]
  cases hi <;> rfl

/-- Settles O6: a command word asks for the operation it decodes to, and brings the level of `cfg_ok` with it. -/
theorem stepRunsTheHostCommand : Obligations.StepRunsTheHostCommand :=
  fun _ _ _ _ _ hp hw => step_of_asks hp (.command hw)

/-- Settles O7: each strobe asks for its stimulus, an expiry with any `ev_accept`, and leaves `cfgOk` as it is. -/
theorem stepRunsTheStimulus : Obligations.StepRunsTheStimulus :=
  ⟨fun _ _ _ hp => step_of_asks hp .rxValid, fun _ _ hp => step_of_asks hp .txEmpty,
    fun _ _ _ hp => step_of_asks hp .tmrExpired⟩

end Sys2Proof.Machine

/-! Proofs. The words of the operations (R90 to R102): one table of fields that the encoder writes and the decoder
reads, the opcode map over it, and the answer to a word that is not in it. -/

namespace Sys2Proof

/-- The fields of R92 to R99, from the most significant bit down: what each bit of the operation's word holds. -/
def Instr.InFields : Instr → Word → Prop
  | .init baud parity, w => opcode w = 0x0#4 ∧ field w 26 2 = 0#2 ∧ field w 24 2 = parity ∧ field w 0 24 = baud
  | .start, w => opcode w = 0x1#4 ∧ field w 0 28 = 0#28
  | .stop, w => opcode w = 0x2#4 ∧ field w 0 28 = 0#28
  | .send addr len, w => opcode w = 0x3#4 ∧ field w 20 8 = addr ∧ field w 12 8 = 0#8 ∧ field w 0 12 = len
  | .receive, w => opcode w = 0x4#4 ∧ field w 0 28 = 0#28
  | .crc16 off len, w => opcode w = 0x5#4 ∧ field w 24 4 = 0#4 ∧ field w 12 12 = off ∧ field w 0 12 = len
  | .verify len, w => opcode w = 0x6#4 ∧ field w 12 16 = 0#16 ∧ field w 0 12 = len
  | .bufRd off, w => opcode w = 0x7#4 ∧ field w 24 4 = 0#4 ∧ field w 12 12 = off ∧ field w 0 12 = 0#12
  | .bufWr off data, w =>
    opcode w = 0x8#4 ∧ field w 24 4 = 0#4 ∧ field w 12 12 = off ∧ field w 8 4 = 0#4 ∧ field w 0 8 = data
  | .rdReg idx, w => opcode w = 0x9#4 ∧ field w 4 24 = 0#24 ∧ field w 0 4 = idx
  | .rxByte byte, w => opcode w = 0xA#4 ∧ field w 8 20 = 0#20 ∧ field w 0 8 = byte
  | .txEmpty, w => opcode w = 0xB#4 ∧ field w 0 28 = 0#28
  | .tmrExp, w => opcode w = 0xC#4 ∧ field w 0 28 = 0#28

/-- R8: a field is a concatenation exactly when its two parts are what is concatenated. -/
theorem extractLsb'_eq_append_iff {k lo m n : Nat} {w : BitVec k} {x : BitVec m} {y : BitVec n} :
    w.extractLsb' lo (m + n) = x ++ y ↔ w.extractLsb' (lo + n) m = x ∧ w.extractLsb' lo n = y := by
  rw [← BitVec.extractLsb'_append_extractLsb'_eq_extractLsb' rfl]
  refine ⟨fun h => ⟨?_, ?_⟩, fun ⟨hx, hy⟩ => by rw [hx, hy]⟩
  · simpa only [BitVec.extractLsb'_append_eq_left] using congrArg (BitVec.extractLsb' n m) h
  · simpa only [BitVec.extractLsb'_append_eq_right] using congrArg (BitVec.extractLsb' 0 n) h

/-- A word's lowest field is `n` bits wide; `Q` says what the bits above it and the field hold. -/
theorem append_eq_word_iff (n : Nat) {m : Nat} {w : BitVec (m + n)} {x : BitVec m} {y : BitVec n} {Q : Prop}
    (h : w.extractLsb' n m = x ∧ w.extractLsb' 0 n = y ↔ Q) : x ++ y = w ↔ Q := by
  have hw := extractLsb'_eq_append_iff (lo := 0) (w := w) (x := x) (y := y)
  rw [BitVec.extractLsb'_eq_self, Nat.zero_add, h] at hw
  exact eq_comm.trans hw

/-- The next field above those that `P` speaks of is `n` bits wide. -/
theorem field_eq_append_and_iff (n : Nat) {w : Word} {lo m : Nat} {x : BitVec m} {y : BitVec n} {P Q : Prop}
    (h : field w (lo + n) m = x ∧ field w lo n = y ∧ P ↔ Q) : field w lo (m + n) = x ++ y ∧ P ↔ Q := by
  rw [← h, ← and_assoc]
  exact and_congr_left fun _ => extractLsb'_eq_append_iff

/-- R92 to R99: the encoder's words are those with these fields. Each format is read from the low bit up, by the
widths of its fields. -/
theorem encode_eq_iff {i : Instr} {w : Word} : encode i = w ↔ i.InFields w := by
  cases i with
  | init baud parity =>
    exact append_eq_word_iff 24 (field_eq_append_and_iff 2 (field_eq_append_and_iff 2 .rfl))
  | start => exact append_eq_word_iff 28 .rfl
  | stop => exact append_eq_word_iff 28 .rfl
  | send addr len =>
    exact append_eq_word_iff 12 (field_eq_append_and_iff 8 (field_eq_append_and_iff 8 .rfl))
  | receive => exact append_eq_word_iff 28 .rfl
  | crc16 off len =>
    exact append_eq_word_iff 12 (field_eq_append_and_iff 12 (field_eq_append_and_iff 4 .rfl))
  | verify len => exact append_eq_word_iff 12 (field_eq_append_and_iff 16 .rfl)
  | bufRd off =>
    exact append_eq_word_iff 12 (field_eq_append_and_iff 12 (field_eq_append_and_iff 4 .rfl))
  | bufWr off data =>
    exact append_eq_word_iff 8
      (field_eq_append_and_iff 4 (field_eq_append_and_iff 12 (field_eq_append_and_iff 4 .rfl)))
  | rdReg idx => exact append_eq_word_iff 4 (field_eq_append_and_iff 24 .rfl)
  | rxByte byte => exact append_eq_word_iff 8 (field_eq_append_and_iff 20 .rfl)
  | txEmpty => exact append_eq_word_iff 28 .rfl
  | tmrExp => exact append_eq_word_iff 28 .rfl

theorem whenZero_eq_ok_iff {zero : Bool} {w : Word} {i j : Instr} :
    whenZero zero w i = .ok j ↔ zero = true ∧ i = j := by
  cases zero <;> simp [whenZero]

/-- R101: the decoder takes the operation whose fields the word has. -/
theorem decode_of_inFields {i : Instr} {w : Word} (h : i.InFields w) : decode w = .ok i := by
  cases i
  all_goals
    simp only [Instr.InFields] at h
    simp [decode, whenZero, h]

/-- R102: a word that decodes has its opcode, and every must-be-zero field was tested. -/
theorem inFields_of_decode {i : Instr} {w : Word} (h : decode w = .ok i) : i.InFields w := by
  unfold decode at h
  split at h
  case h_14 => simp at h
  all_goals
    rename_i hop
    obtain ⟨hz, rfl⟩ := whenZero_eq_ok_iff.mp h
    exact ⟨BitVec.eq_of_toNat_eq hop, by simpa [and_assoc] using hz⟩

/-- R101, R102: the decoder is the encoder's inverse, so each operation has one word and each legal word one
operation. -/
theorem decode_eq_ok_iff {i : Instr} {w : Word} : decode w = .ok i ↔ encode i = w :=
  ⟨fun h => encode_eq_iff.mpr (inFields_of_decode h), fun h => decode_of_inFields (encode_eq_iff.mp h)⟩

@[simp] theorem decode_encode (i : Instr) : decode (encode i) = .ok i := decode_eq_ok_iff.mpr rfl

/-- R103: a port admits the words of its own agent's operations. -/
theorem decodeOn_eq_ok_iff {a : Agent} {w : Word} {i : Instr} :
    decodeOn a w = .ok i ↔ decode w = .ok i ∧ i.agent = a := by
  refine ⟨fun h => ⟨?_, Machine.agent_of_decodeOn h⟩, fun ⟨h, ha⟩ => by simp [decodeOn, h, Instr.wellFormed, ha]⟩
  unfold decodeOn at h
  split at h
  next j hj =>
    split at h
    · exact hj.trans h
    · simp at h
  next => simp at h

/-- Settles O2: the decoder inverts the encoder, and a port admits its own agent's operations. -/
theorem decodeOfEncodeIsTheInstruction : Obligations.DecodeOfEncodeIsTheInstruction :=
  fun i => ⟨decode_encode i, decodeOn_eq_ok_iff.mpr ⟨decode_encode i, rfl⟩⟩

/-- Settles O3: the decoder inverts the encoder. -/
theorem encodeOfDecodeIsTheWord : Obligations.EncodeOfDecodeIsTheWord :=
  fun _ _ => decode_eq_ok_iff.mp

/-- Settles O5: the accepted words are the encodings of what they are listed with. -/
theorem listedWordsDecodeAsListed : Obligations.ListedWordsDecodeAsListed :=
  ⟨decode_encode (.init 19200 2), decode_encode (.send 0x11 5), decode_encode (.crc16 255 2),
    decode_encode (.verify 257), decode_encode (.bufRd 255), decode_encode (.bufWr 1 0xAB), decode_encode (.rdReg 5),
    decode_encode (.rxByte 0x7B), decode_encode .start, decode_encode .stop, decode_encode .receive,
    decode_encode .txEmpty, decode_encode .tmrExp, rfl, rfl, rfl, rfl⟩

/-! ## The opcode map (R101) -/

/-- The row's match names every field that its mask covers. -/
theorem OpcodeRow.field_eq_of_selects {r : OpcodeRow} {w : Word} (h : r.selects w = true) (lo n : Nat)
    (hm : field r.mask lo n = BitVec.allOnes n) : field w lo n = field r.pattern lo n := by
  have hw : w &&& r.mask = r.pattern := by simpa [OpcodeRow.selects] using h
  unfold field at hm ⊢
  rw [← hw, BitVec.extractLsb'_and, hm, BitVec.and_allOnes]

/-- Every row's mask covers the opcode. -/
theorem OpcodeRow.opcode_eq_of_selects {r : OpcodeRow} {w : Word} (hr : r ∈ opcodeTable) (h : r.selects w = true) :
    opcode w = opcode r.pattern := by
  have hm : ∀ r ∈ opcodeTable, field r.mask 28 4 = BitVec.allOnes 4 := by decide
  exact r.field_eq_of_selects h 28 4 (hm r hr)

theorem OpcodeRow.eq_of_opcode_eq {r q : OpcodeRow} (hr : r ∈ opcodeTable) (hq : q ∈ opcodeTable)
    (h : opcode r.pattern = opcode q.pattern) : r = q := by
  have hnodup : (opcodeTable.map fun r => opcode r.pattern).Nodup := by decide
  exact List.inj_on_of_nodup_map hnodup hr hq h

/-- The row of an operation, by its mnemonic. -/
theorem rowOf (i : Instr) : Laws.RowOf.Statement i := by
  cases i with
  | init baud parity => exact Laws.RowOf.init baud parity
  | start => exact Laws.RowOf.start
  | stop => exact Laws.RowOf.stop
  | send addr len => exact Laws.RowOf.send addr len
  | receive => exact Laws.RowOf.receive
  | crc16 off len => exact Laws.RowOf.crc16 off len
  | verify len => exact Laws.RowOf.verify len
  | bufRd off => exact Laws.RowOf.bufRd off
  | bufWr off data => exact Laws.RowOf.bufWr off data
  | rdReg idx => exact Laws.RowOf.rdReg idx
  | rxByte byte => exact Laws.RowOf.rxByte byte
  | txEmpty => exact Laws.RowOf.txEmpty
  | tmrExp => exact Laws.RowOf.tmrExp

theorem exists_row_of_decode {w : Word} {i : Instr} (h : decode w = .ok i) :
    ∃ r ∈ opcodeTable, r.selects w = true ∧ r.mnemonic = i.mnemonic ∧ r.agent = i.agent := by
  obtain ⟨r, hr, hname, hagent, hsel⟩ := rowOf i
  exact ⟨r, hr, decode_eq_ok_iff.mp h ▸ hsel, hname, hagent⟩

/-- R101: each row's mask covers the opcode and the must-be-zero fields of its operation. -/
theorem exists_decode_of_selects {w : Word} {r : OpcodeRow} (hr : r ∈ opcodeTable) (h : r.selects w = true) :
    ∃ i, decode w = .ok i ∧ i.mnemonic = r.mnemonic ∧ i.agent = r.agent := by
  have hf := OpcodeRow.field_eq_of_selects h
  simp only [opcodeTable, List.mem_cons, List.not_mem_nil, or_false] at hr
  rcases hr with rfl | rfl | rfl | rfl | rfl | rfl | rfl | rfl | rfl | rfl | rfl | rfl | rfl
  · exact ⟨.init _ _, decode_of_inFields ⟨hf 28 4 rfl, hf 26 2 rfl, rfl, rfl⟩, rfl, rfl⟩
  · exact ⟨.start, decode_of_inFields ⟨hf 28 4 rfl, hf 0 28 rfl⟩, rfl, rfl⟩
  · exact ⟨.stop, decode_of_inFields ⟨hf 28 4 rfl, hf 0 28 rfl⟩, rfl, rfl⟩
  · exact ⟨.send _ _, decode_of_inFields ⟨hf 28 4 rfl, rfl, hf 12 8 rfl, rfl⟩, rfl, rfl⟩
  · exact ⟨.receive, decode_of_inFields ⟨hf 28 4 rfl, hf 0 28 rfl⟩, rfl, rfl⟩
  · exact ⟨.crc16 _ _, decode_of_inFields ⟨hf 28 4 rfl, hf 24 4 rfl, rfl, rfl⟩, rfl, rfl⟩
  · exact ⟨.verify _, decode_of_inFields ⟨hf 28 4 rfl, hf 12 16 rfl, rfl⟩, rfl, rfl⟩
  · exact ⟨.bufRd _, decode_of_inFields ⟨hf 28 4 rfl, hf 24 4 rfl, rfl, hf 0 12 rfl⟩, rfl, rfl⟩
  · exact ⟨.bufWr _ _, decode_of_inFields ⟨hf 28 4 rfl, hf 24 4 rfl, rfl, hf 8 4 rfl, rfl⟩, rfl, rfl⟩
  · exact ⟨.rdReg _, decode_of_inFields ⟨hf 28 4 rfl, hf 4 24 rfl, rfl⟩, rfl, rfl⟩
  · exact ⟨.rxByte _, decode_of_inFields ⟨hf 28 4 rfl, hf 8 20 rfl, rfl⟩, rfl, rfl⟩
  · exact ⟨.txEmpty, decode_of_inFields ⟨hf 28 4 rfl, hf 0 28 rfl⟩, rfl, rfl⟩
  · exact ⟨.tmrExp, decode_of_inFields ⟨hf 28 4 rfl, hf 0 28 rfl⟩, rfl, rfl⟩

/-- Settles O4: two rows that select one word have its opcode, and no two rows share an opcode. -/
theorem decodeFollowsTheOpcodeMap : Obligations.DecodeFollowsTheOpcodeMap :=
  ⟨fun _ _ => exists_row_of_decode, fun _ _ => exists_decode_of_selects, fun _ _ hr _ hq hrw hqw =>
    OpcodeRow.eq_of_opcode_eq hr hq
      ((OpcodeRow.opcode_eq_of_selects hr hrw).symm.trans (OpcodeRow.opcode_eq_of_selects hq hqw))⟩

end Sys2Proof

namespace Sys2Proof.Machine

/-- R102: a word outside the host's rows is no host operation. -/
theorem decodeOn_host_of_illegal {w : Word}
    (h : 10 ≤ (opcode w).toNat ∨ ∃ q ∈ opcodeTable, opcode q.pattern = opcode w ∧ q.selects w = false) :
    ∃ e, decodeOn .host w = .error e := by
  cases hd : decodeOn .host w with
  | error e => exact ⟨e, rfl⟩
  | ok i =>
    obtain ⟨hw, hhost⟩ := decodeOn_eq_ok_iff.mp hd
    obtain ⟨r, hr, hsel, -, hagent⟩ := exists_row_of_decode hw
    have hop := OpcodeRow.opcode_eq_of_selects hr hsel
    rcases h with hlarge | ⟨q, hq, hqop, hqsel⟩
    · have hsmall : ∀ r ∈ opcodeTable, r.agent = .host → (opcode r.pattern).toNat < 10 := by decide
      have := hsmall r hr (hagent.trans hhost)
      rw [hop] at hlarge
      omega
    · obtain rfl := OpcodeRow.eq_of_opcode_eq hq hr (hqop.trans hop)
      rw [hsel] at hqsel
      contradiction

/-- R102: the answer to an illegal word, in every state. -/
theorem serve_illegal {w : Word} {e : DecodeError} (h : decodeOn .host w = .error e) (c : Bool) (s : State) :
    serve (.command w c) s = .next (s.quiet.answer .illegalOp 0) := by
  simp [serve, serveCommand, h, reply]

/-- Settles O9: the port refuses the word before `exec`, so the fault latch plays no part. -/
theorem illegalWordIsAnsweredIllegalOp : Obligations.IllegalWordIsAnsweredIllegalOp := by
  intro s w c rest hp hw
  obtain ⟨e, he⟩ := decodeOn_host_of_illegal hw
  rw [step_cons hp, serve_illegal he]
  rfl

/-- R91 item 1: the host presents an operation of its own as the operation's word. -/
theorem asks_command_encode {i : Instr} (hi : i.agent = .host) (c : Bool) :
    (PortEvent.command (encode i) c).Asks i :=
  .command (decodeOn_eq_ok_iff.mpr ⟨decode_encode i, hi⟩)

/-- R91: a trace presents each operation as a port event that asks for it. -/
theorem asks_ofTraceWord (i : Instr) : (PortEvent.ofTraceWord (encode i)).Asks i := by
  unfold PortEvent.ofTraceWord
  rw [decode_encode]
  cases i with
  | rxByte b => exact .rxValid
  | txEmpty => exact .txEmpty
  | tmrExp => exact .tmrExpired
  | _ => exact asks_command_encode rfl true

/-- R112: a trace's host operation finds `cfg_ok` at 1; a strobe leaves the level as it is. -/
theorem cfgOkAfter_ofTraceWord (i : Instr) (s : State) :
    (PortEvent.ofTraceWord (encode i)).cfgOkAfter s = if i.agent = .host then true else s.cfgOk := by
  unfold PortEvent.ofTraceWord
  rw [decode_encode]
  cases i <;> rfl

/-- Settles O8: the word stands at the head of the ports, and the event it became asks for the operation. -/
theorem stepRunsThePlacedWord : Obligations.StepRunsThePlacedWord := by
  intro s i
  have hp : (s.withFetchWord 32 (encode i).toNat).pending = .ofTraceWord (encode i) :: s.pending := by
    rw [State.withFetchWord, Nat.mod_eq_of_lt (encode i).isLt, BitVec.ofNat_toNat, BitVec.setWidth_eq]
  rw [step_of_asks hp (asks_ofTraceWord i), cfgOkAfter_ofTraceWord]
  rfl

end Sys2Proof.Machine

/-! Proofs. A frame on its way out (R113, R175, R201, R202): what a run puts on the line, the stores that load the
PDU, `SEND`, and one strobe per byte with one more that turns the line round. -/

namespace Sys2Proof.Machine

/-- The run goes on to the end and puts these bytes on the line, in order (R246). -/
def Transmits (es : List PortEvent) (s : State) (bytes : List Byte) (t : State) : Prop :=
  ∃ outs, runEvents es s = some (outs, t) ∧ outs.filterMap (·.tx) = bytes

theorem Transmits.nil (s : State) : Transmits [] s [] s := ⟨[], rfl, rfl⟩

theorem Transmits.cons {e : PortEvent} {es : List PortEvent} {s t u : State} {o : Option Byte} {bytes : List Byte}
    (h : serve e s = .next t) (htx : t.out.tx = o) (hr : Transmits es t bytes u) :
    Transmits (e :: es) s (o.toList ++ bytes) u := by
  obtain ⟨outs, hrun, rfl⟩ := hr
  refine ⟨t.out :: outs, by rw [runEvents_cons h, hrun]; rfl, ?_⟩
  cases o <;> simp [htx]

theorem Transmits.append {a b : List PortEvent} {s t u : State} {x y : List Byte} (ha : Transmits a s x t)
    (hb : Transmits b t y u) : Transmits (a ++ b) s (x ++ y) u := by
  obtain ⟨o, ho, rfl⟩ := ha
  obtain ⟨q, hq, rfl⟩ := hb
  exact ⟨o ++ q, by rw [runEvents_append, ho, Option.bind_some, hq]; rfl, List.filterMap_append⟩

/-- R91 item 1: the host presents an operation of its own as the operation's word. -/
theorem serve_command_encode {i : Instr} (hi : i.agent = .host) (c : Bool) (s : State) :
    serve (.command (encode i) c) s = exec i { s with cfgOk := c } :=
  serve_of_asks (asks_command_encode hi c) s

/-- A configured block at rest: where a host's transaction starts (R7, R175). -/
structure State.Ready (s : State) : Prop where
  paramsLegal : s.params.Legal
  safe : s.fault = .clear
  configured : s.configured = true
  receiverIdle : s.rcvState = .idle
  senderIdle : s.sndState = .idle

theorem State.Ready.withCfgOk {s : State} (h : s.Ready) (c : Bool) : { s with cfgOk := c }.Ready := { h with }

theorem State.Ready.owned {s : State} (h : s.Ready) : s.owned = false :=
  s.owned_eq_false.mpr ⟨by simp [h.receiverIdle], by simp [h.senderIdle]⟩

/-- R7: every offset and every length fits in `W_POS` bits. -/
theorem State.Ready.toNat_ofNat {s : State} (h : s.Ready) {n : Nat} (hn : n ≤ s.bufSize) :
    (BitVec.ofNat 12 n).toNat = n := by
  have hmax := h.paramsLegal.2
  rw [s.bufSize_eq] at hn
  exact Nat.mod_eq_of_lt (by omega)

/-! ## Loading the PDU -/

/-- R183: a store that no check refuses. -/
theorem execBufWr_of_unrefused {off : Pos} {v : Byte} {s : State} (hf : s.fault = .clear) (ho : s.owned = false)
    (hb : off.toNat < s.bufSize) : execBufWr off v s = .next ((s.quiet.setCell off.toNat v).answer .ok 0) := by
  refine guarded_of_all_false ?_
  simp [s.faulted_eq_false.mpr hf, badOffset, hb, ho]

/-- R183: a store changes one cell of a block at rest and emits nothing. -/
theorem State.Ready.serve_bufWr {s : State} (h : s.Ready) {off : Nat} (hoff : off < s.bufSize) (v : Byte) (c : Bool) :
    ∃ t, serve (.command (encode (.bufWr (BitVec.ofNat 12 off) v)) c) s = .next t ∧ t.out.tx = none ∧ t.Ready ∧
      t.params = s.params ∧ t.cell off = v ∧ ∀ a, a ≠ off → t.cell a = s.cell a := by
  have hpos := h.toNat_ofNat (Nat.le_of_lt hoff)
  have hexec := execBufWr_of_unrefused (v := v) (h.withCfgOk c).safe (h.withCfgOk c).owned (hpos.trans_lt hoff)
  rw [hpos] at hexec
  exact ⟨_, (serve_command_encode rfl c s).trans hexec, rfl, { h with }, rfl, State.cell_setCell_same _ _ _,
    fun a ha => State.cell_setCell_ne _ _ _ _ ha⟩

/-- R113: after one store per byte the list stands in the buffer, and nothing went out. -/
theorem State.Ready.transmits_stores {s : State} (h : s.Ready) {off : Nat} {vs : List Byte}
    (hb : off + vs.length ≤ s.bufSize) (c : Bool) :
    ∃ t, Transmits (commands c (storesFrom off vs)) s [] t ∧ t.Ready ∧ t.params = s.params ∧
      t.memRead off vs.length = vs ∧ ∀ a, a < off → t.cell a = s.cell a := by
  induction vs generalizing s off with
  | nil => exact ⟨s, .nil s, h, rfl, rfl, fun _ _ => rfl⟩
  | cons v vs ih =>
    rw [List.length_cons] at hb
    obtain ⟨t, hserve, htx, ht, htp, hv, hkept⟩ := h.serve_bufWr (off := off) (by omega) v c
    have hb' : off + 1 + vs.length ≤ t.bufSize := by
      rw [t.bufSize_eq, htp, ← s.bufSize_eq]
      omega
    obtain ⟨u, hrun, hu, hup, hvs, hbelow⟩ := ih ht hb'
    refine ⟨u, .cons hserve htx hrun, hu, hup.trans htp, ?_, fun a ha => ?_⟩
    · rw [List.length_cons, State.memRead_succ, hvs, hbelow off (Nat.lt_succ_self off), hv]
    · rw [hbelow a (Nat.lt_succ_of_lt ha), hkept a (Nat.ne_of_lt ha)]

/-! ## Sending -/

/-- The bytes still to go out, in order, from the cell at `snd_ptr` on (R32, R33, R176). -/
structure State.Sends (bytes : List Byte) (s : State) : Prop where
  safe : s.fault = .clear
  transmitting : s.sndState = .transmitting
  count : s.sndCnt.toNat = bytes.length
  inBuffer : s.memRead s.sndPtr.toNat bytes.length = bytes
  inside : s.sndPtr.toNat + bytes.length ≤ s.bufSize
  bufSize_lt : s.bufSize < 4096

/-- R202: the line turned round after a request to `addr`, waiting for the follow-up. -/
def State.AwaitsFollowUp (addr : Byte) (p : Config.Params) (t : State) : Prop :=
  t.sndState = .waitFollowUp ∧ t.rxEn = true ∧ t.txEn = false ∧ t.tmrArmed = true ∧
  (addr = 0#8 → t.isBcast = true ∧ t.tmrMode = .convertDelay ∧ t.tmrThr = p.convertDelayUs) ∧
  (addr ≠ 0#8 → t.isBcast = false ∧ t.tmrMode = .respondTimeout ∧ t.tmrThr = p.respondTimeoutUs)

@[simp] theorem length_frameOf (addr : Byte) (pdu : List Byte) : (frameOf addr pdu).length = pdu.length + 3 := by
  simp [frameOf, crcBytes]

@[simp] theorem State.memRead_startSending (s : State) (len : Pos) (off n : Nat) :
    (s.startSending len).memRead off n = s.memRead off n :=
  State.memRead_of_buf _ _ _ _ rfl rfl

theorem badSendLen_eq_false {s : State} {len : Pos} (h1 : 1 ≤ len.toNat) (hmax : len.toNat ≤ s.params.pduMax) :
    badSendLen s len = false := by
  have hne : len ≠ 0#12 := by bv_omega
  simp [badSendLen, hne, hmax]

/-- R175: a `SEND` that no check refuses. -/
theorem State.Ready.execSend {s : State} (h : s.Ready) {len : Pos} (h1 : 1 ≤ len.toNat)
    (hmax : len.toNat ≤ s.params.pduMax) (addr : Byte) :
    execSend addr len s = .next (((s.quiet.putFrame addr len).startSending len).answer .ok 0) := by
  refine guarded_of_all_false ?_
  simp [s.faulted_eq_false.mpr h.safe, h.configured, badSendLen_eq_false h1 hmax,
    s.sendBusy_eq_false.mpr ⟨h.receiverIdle, h.senderIdle⟩]

/-- R175: an accepted `SEND` has the whole frame to go out. -/
theorem State.Ready.sends {s : State} (h : s.Ready) {len : Pos} (hmax : len.toNat ≤ s.params.pduMax) (addr : Byte) :
    (((s.quiet.putFrame addr len).startSending len).answer .ok 0).Sends (frameOf addr (s.memRead 1 len.toNat)) where
  safe := by simpa using h.safe
  transmitting := by simp
  count := by simpa using sndTotal_startSending h.paramsLegal hmax
  inBuffer := by simpa using s.quiet.memRead_putFrame addr len
  inside := by simpa [s.bufSize_eq] using hmax
  bufSize_lt := by
    have hlegal := h.paramsLegal.2
    simp only [State.answer_bufSize, State.startSending_bufSize, State.putFrame_bufSize, State.quiet_bufSize,
      s.bufSize_eq]
    omega

/-- R175: the host's `SEND` of the PDU in the buffer. -/
theorem State.Ready.serve_send {s : State} (h : s.Ready) {len : Pos} (h1 : 1 ≤ len.toNat)
    (hmax : len.toNat ≤ s.params.pduMax) (addr : Byte) (c : Bool) :
    ∃ t, serve (.command (encode (.send addr len)) c) s = .next t ∧ t.out.tx = none ∧
      t.Sends (frameOf addr (s.memRead 1 len.toNat)) ∧ t.params = s.params ∧ t.cell 0 = addr := by
  have hread : State.memRead { s with cfgOk := c } 1 len.toNat = s.memRead 1 len.toNat :=
    State.memRead_of_buf _ _ _ _ rfl rfl
  exact ⟨_, (serve_command_encode rfl c s).trans ((h.withCfgOk c).execSend h1 hmax addr), by simp,
    hread ▸ (h.withCfgOk c).sends hmax addr, by simp, by simp [State.cell_putFrame]⟩

/-- R113: `SENDP` loads the PDU and starts the transmission of its frame, with nothing on the line yet. -/
theorem State.Ready.transmits_sendp {s : State} (h : s.Ready) {pdu : List Byte} (h1 : 1 ≤ pdu.length)
    (hmax : pdu.length ≤ s.params.pduMax) (addr : Byte) (c : Bool) :
    ∃ t, Transmits (commands c (Pseudo.sendp addr pdu).expand) s [] t ∧ t.Sends (frameOf addr pdu) ∧
      t.params = s.params ∧ t.cell 0 = addr := by
  have hfits : 1 + pdu.length ≤ s.bufSize := by rw [s.bufSize_eq]; omega
  have hlen := h.toNat_ofNat ((Nat.le_add_left _ 1).trans hfits)
  obtain ⟨t, hload, ht, htp, hpdu, -⟩ := h.transmits_stores hfits c
  obtain ⟨u, hserve, htx, hu, hup, h0⟩ := ht.serve_send (h1.trans_eq hlen.symm) (by rwa [hlen, htp]) addr c
  rw [hlen, hpdu] at hu
  have hrun := hload.append (.cons hserve htx (.nil u))
  exact ⟨u, by simpa [commands, Pseudo.expand] using hrun, hu, hup.trans htp, h0⟩

/-- R202: `TX_EMPTY` while transmitting with no byte remaining. -/
theorem execTxEmpty_of_none_remaining {s : State} (hf : s.fault = .clear) (hs : s.sndState = .transmitting)
    (hc : s.sndCnt = 0#12) : execTxEmpty s = .next s.quiet.completeSending := by
  simp [execTxEmpty, unlessFaulted_of_clear hf, hs, hc]

theorem sendNextByte_of_inside {s : State} (h : s.sndPtr.toNat < s.bufSize) :
    sendNextByte s =
      .next ({ s with sndPtr := s.sndPtr + 1, sndCnt := s.sndCnt - 1 }.emitTx (s.cell s.sndPtr.toNat)) :=
  if_pos h

/-- R201: a strobe sends the next byte. -/
theorem State.Sends.serve_next {b : Byte} {bytes : List Byte} {s : State} (h : s.Sends (b :: bytes)) :
    ∃ t, serve .txEmpty s = .next t ∧ t.out.tx = some b ∧ t.Sends bytes ∧ t.params = s.params ∧
      t.cell 0 = s.cell 0 := by
  obtain ⟨hf, hs, hcount, hbytes, hin, hsize⟩ := h
  rw [List.length_cons] at hcount hbytes hin
  rw [State.memRead_succ, List.cons.injEq] at hbytes
  obtain ⟨hb, hrest⟩ := hbytes
  have hptr : (s.sndPtr + 1).toNat = s.sndPtr.toNat + 1 := by bv_omega
  have hserve : serve .txEmpty s =
      .next { s with sndPtr := s.sndPtr + 1, sndCnt := s.sndCnt - 1, out := { tx := some b } } := by
    refine (execTxEmpty_of_remaining hf hs (by bv_omega)).trans ((sendNextByte_of_inside ?_).trans ?_)
    · rw [State.quiet_sndPtr, State.quiet_bufSize]
      omega
    · rw [← hb]
      rfl
  exact ⟨_, hserve, rfl,
    { safe := hf
      transmitting := hs
      count := by dsimp only; bv_omega
      inBuffer := by
        dsimp only
        rw [hptr]
        exact Eq.trans (State.memRead_of_buf _ s _ _ rfl rfl) hrest
      inside := by
        rw [hptr]
        show _ ≤ s.bufSize
        omega
      bufSize_lt := hsize }, rfl, rfl⟩

/-- R202: the strobe after the last byte turns the line round. -/
theorem State.Sends.serve_last {s : State} (h : s.Sends []) :
    ∃ t, serve .txEmpty s = .next t ∧ t.out.tx = none ∧ t.AwaitsFollowUp (s.cell 0) s.params := by
  have hserve : serve .txEmpty s = .next s.quiet.completeSending :=
    execTxEmpty_of_none_remaining h.safe h.transmitting (BitVec.eq_of_toNat_eq h.count)
  refine ⟨_, hserve, ?_⟩
  rcases s.quiet.completeSending_eq with ⟨h0, he⟩ | ⟨h0, he⟩
  · rw [he]
    exact ⟨rfl, rfl, rfl, rfl, rfl, fun _ => ⟨rfl, rfl, rfl⟩, fun hne => absurd h0 hne⟩
  · rw [he]
    exact ⟨rfl, rfl, rfl, rfl, rfl, fun heq => absurd heq h0, fun _ => ⟨rfl, rfl, rfl⟩⟩

/-- R201, R202: one strobe more than bytes. -/
theorem State.Sends.transmits {bytes : List Byte} {s : State} (h : s.Sends bytes) :
    ∃ t, Transmits (List.replicate (bytes.length + 1) .txEmpty) s bytes t ∧
      t.AwaitsFollowUp (s.cell 0) s.params := by
  induction bytes generalizing s with
  | nil =>
    obtain ⟨t, hserve, htx, ht⟩ := h.serve_last
    exact ⟨t, .cons hserve htx (.nil t), ht⟩
  | cons b bytes ih =>
    obtain ⟨t, hserve, htx, ht, hp, h0⟩ := h.serve_next
    obtain ⟨u, hrun, hu⟩ := ih ht
    exact ⟨u, .cons hserve htx hrun, by rwa [h0, hp] at hu⟩

/-- Settles O51: the strobes send the frame of the loaded PDU. -/
theorem sentFrameGoesOutOnTheWire : Obligations.SentFrameGoesOutOnTheWire := by
  intro s addr pdu c hp hf hc hr hs h1 hmax
  obtain ⟨t, hload, hsends, hparams, h0⟩ := State.Ready.transmits_sendp ⟨hp, hf, hc, hr, hs⟩ h1 hmax addr c
  obtain ⟨u, hdrain, hdone⟩ := hsends.transmits
  rw [length_frameOf] at hdrain
  rw [h0, hparams] at hdone
  obtain ⟨outs, hrun, htx⟩ := hload.append hdrain
  exact ⟨outs, u, hrun, htx, hdone⟩

end Sys2Proof.Machine

/-! Proofs. The CRC on two bytes (R130 to R135): eight shifts of a value with a clear low byte move the high byte down,
so two bytes leave nothing exactly when they are the CRC's own. -/

namespace Sys2Proof.Machine

/-! ## One byte through the CRC -/

/-- R62: a CRC value by its two bytes. -/
theorem half_eq_append_iff {c : Half} {hi lo : Byte} : c = hi ++ lo ↔ crcHi c = hi ∧ crcLo c = lo := by
  have h := extractLsb'_eq_append_iff (lo := 0) (w := c) (x := hi) (y := lo)
  rwa [BitVec.extractLsb'_eq_self] at h

theorem crcHi_append_crcLo (c : Half) : crcHi c ++ crcLo c = c := BitVec.extractLsb'_append_extractLsb'

@[simp] theorem crcHi_append (hi lo : Byte) : crcHi (hi ++ lo) = hi := BitVec.extractLsb'_append_eq_left

theorem append_xor_append (a b c d : Byte) : ((a ++ b : Half) ^^^ (c ++ d)) = (a ^^^ c) ++ (b ^^^ d) :=
  BitVec.xor_append

theorem byte_setWidth (b : Byte) : b.setWidth 16 = 0#8 ++ b := BitVec.setWidth_eq_append (by decide)

theorem half_ushiftRight_byte (c : Half) : c >>> 8 = 0#8 ++ crcHi c :=
  BitVec.ushiftRight_eq_extractLsb'_of_lt (by decide)

/-- While the bits that fall out are clear, the polynomial is never added. -/
theorem crcShifts_eq_ushiftRight {n : Nat} {c : Half} (h : ∀ k, k < n → c.getLsbD k = false) :
    crcShifts n c = c >>> n := by
  induction n generalizing c with
  | zero => rfl
  | succ n ih =>
    have h0 : crcShift c = c >>> 1 := if_neg (Bool.eq_false_iff.mp (h 0 (Nat.succ_pos n)))
    have hrest : ∀ k, k < n → (c >>> 1).getLsbD k = false := fun k hk => by
      simpa [Nat.add_comm 1 k] using h (k + 1) (Nat.succ_lt_succ hk)
    rw [crcShifts, h0, ih hrest, ← BitVec.shiftRight_add, Nat.add_comm 1 n]

theorem crcShifts_append_zero (b : Byte) : crcShifts 8 (b ++ 0#8) = 0#8 ++ b := by
  have hclear : ∀ k, k < 8 → (b ++ 0#8 : Half).getLsbD k = false := fun k hk => by
    rw [BitVec.getLsbD_append, if_pos hk, BitVec.getLsbD_zero]
  rw [crcShifts_eq_ushiftRight hclear, half_ushiftRight_byte, crcHi_append]

theorem crcShifts_eq_iff {n : Nat} {a b : Half} : crcShifts n a = crcShifts n b ↔ a = b :=
  ⟨crcShifts_injective, congrArg _⟩

theorem crcByte_eq_zero_iff {c : Half} {b : Byte} : crcByte c b = 0#16 ↔ c = 0#8 ++ b := by
  rw [crcByte, show (0#16 : Half) = crcShifts 8 0#16 from rfl, crcShifts_eq_iff, BitVec.xor_eq_zero_iff, byte_setWidth]

/-- The value before a byte, where the one after it fits in a byte. -/
theorem crcByte_eq_byte_iff {c : Half} {a b : Byte} : crcByte c a = 0#8 ++ b ↔ c = b ++ a := by
  have hb : (b ++ 0#8 : Half) = (b ++ a) ^^^ (0#8 ++ a) := by simp [append_xor_append]
  rw [crcByte, ← crcShifts_append_zero, crcShifts_eq_iff, byte_setWidth, hb, BitVec.xor_left_inj]

theorem crcByte_injective_left {a : Byte} {c d : Half} (h : crcByte c a = crcByte d a) : c = d :=
  (BitVec.xor_left_inj _).mp (crcShifts_injective h)

theorem crcByte_injective_right {c : Half} {a b : Byte} (h : crcByte c a = crcByte c b) : a = b := by
  have hab := (BitVec.xor_right_inj _).mp (crcShifts_injective h)
  rwa [byte_setWidth, byte_setWidth, BitVec.append_right_inj] at hab

/-- R131: the high byte moves down, and the table holds what the low byte shifts in. -/
theorem crcTableByte_eq_crcByte (c : Half) (b : Byte) : crcTableByte c b = crcByte c b := by
  have hsplit : c ^^^ (0#8 ++ b) = (crcHi c ++ 0#8) ^^^ (0#8 ++ (crcLo c ^^^ b)) := by
    conv_lhs => rw [← crcHi_append_crcLo c]
    simp [append_xor_append]
  rw [crcByte, byte_setWidth, hsplit, crcShifts_xor, crcShifts_append_zero, crcTableByte, half_ushiftRight_byte,
    crcTable, byte_setWidth]

/-! ## Byte lists through the CRC -/

theorem crcFrom_injective {bs : List Byte} {c d : Half} (h : crcFrom c bs = crcFrom d bs) : c = d := by
  induction bs generalizing c d with
  | nil => exact h
  | cons b bs ih => exact crcByte_injective_left (ih h)

/-- R132 item 2: two bytes leave nothing exactly when they are the CRC, low byte first. -/
theorem crcFrom_pair_eq_zero_iff {c : Half} {lo hi : Byte} :
    crcFrom c [lo, hi] = 0#16 ↔ crcHi c = hi ∧ crcLo c = lo :=
  crcByte_eq_zero_iff.trans (crcByte_eq_byte_iff.trans half_eq_append_iff)

theorem crcFrom_crcBytes (c : Half) : crcFrom c (crcBytes c) = 0#16 := crcFrom_pair_eq_zero_iff.mpr ⟨rfl, rfl⟩

/-- R132 item 3. -/
theorem crc16_append (a b : List Byte) : crc16 (a ++ b) = crcFrom (crc16 a) b := crcFrom_append _ a b

theorem crc16_append_crcBytes (m : List Byte) : crc16 (m ++ crcBytes (crc16 m)) = 0#16 := by
  rw [crc16_append, crcFrom_crcBytes]

/-- R131. -/
theorem crcTableFrom_eq_crcFrom (c : Half) (bs : List Byte) : crcTableFrom c bs = crcFrom c bs := by
  induction bs generalizing c with
  | nil => rfl
  | cons b bs ih => rw [crcTableFrom, crcTableByte_eq_crcByte, ih, crcFrom]

theorem verify_iff {f : List Byte} : verify f = true ↔ crc16 f = 0#16 := beq_iff_eq

theorem verify_eq_false_iff {f : List Byte} : verify f = false ↔ crc16 f ≠ 0#16 := beq_eq_false_iff_ne

/-- R135: a frame verifies. -/
theorem verify_frameOf (addr : Byte) (pdu : List Byte) : verify (frameOf addr pdu) = true :=
  verify_iff.mpr (crc16_append_crcBytes _)

/-- Settles O46: the two bytes appended are the ones that leave nothing. -/
theorem appendedCrcLeavesNoResidue : Obligations.AppendedCrcLeavesNoResidue :=
  ⟨crc16_append, crc16_append_crcBytes⟩

/-- Settles O47, byte by byte. -/
theorem tableFormComputesTheSameCrc : Obligations.TableFormComputesTheSameCrc :=
  crcTableFrom_eq_crcFrom Config.crcInit

/-- Settles O48: the loop loses nothing, so equal residues come from equal bytes. -/
theorem oneChangedByteIsDetected : Obligations.OneChangedByteIsDetected := by
  intro pre post b c hne hb
  rw [verify_iff, crc16_append] at hb
  rw [verify_eq_false_iff, crc16_append]
  intro hc
  exact hne (crcByte_injective_right (crcFrom_injective (hb.trans hc.symm)))

/-- Settles O49: only its own two bytes turn the initial value into zero, and it does not fit in one. -/
theorem shortListsThatVerify : Obligations.ShortListsThatVerify := by
  refine ⟨rfl, fun b => ?oneByte, fun a b => ?twoBytes⟩
  case oneByte =>
    rw [verify_eq_false_iff]
    intro h
    obtain ⟨hhi, -⟩ := half_eq_append_iff.mp (crcByte_eq_zero_iff.mp h)
    exact absurd hhi (by decide)
  case twoBytes =>
    have hpair : verify [a, b] = true ↔ 0xFF#8 = b ∧ 0xFF#8 = a := verify_iff.trans crcFrom_pair_eq_zero_iff
    rw [hpair, and_comm, eq_comm, @eq_comm _ _ b]

/-- Settles O50: a frame verifies, has four bytes or more, and its PDU is what stands before the CRC. -/
theorem parseOfFrameIsAddressAndPdu : Obligations.ParseOfFrameIsAddressAndPdu := by
  intro addr pdu hpdu
  have hlen : Config.minFrame ≤ (frameOf addr pdu).length := by
    rw [length_frameOf]
    exact Nat.add_le_add_right hpdu 3
  have hparse : parseFrame (frameOf addr pdu) =
      some (addr, (pdu ++ crcBytes (crc16 (addr :: pdu))).take ((frameOf addr pdu).length - 3)) :=
    if_pos ⟨hlen, verify_frameOf addr pdu⟩
  rw [hparse, length_frameOf, Nat.add_sub_cancel, List.take_left]

section
set_option maxRecDepth 4000

/-- Settles O45, by running the loop on each list. -/
theorem listedCrcValues : Obligations.ListedCrcValues := by
  unfold Obligations.ListedCrcValues
  decide

end

end Sys2Proof.Machine

/-! Proofs. The checks of an operation on the buffer, one by one, and the operations that only read (R136, R139,
R140). -/

namespace Sys2Proof.Machine

/-- The operation is refused while Faulted, for its operands, and while the buffer is owned, in this order (R136, R139,
R180, R183). -/
def ChecksBuffer (i : Instr) (s : State) (bad : Bool) (effect : State → Result) : Prop :=
  exec i s = guarded [(s.faulted, .faulted), (bad, .invalidArg), (s.owned, .busy)] s effect

namespace ChecksBuffer

variable {i : Instr} {s : State} {bad : Bool} {effect : State → Result} (h : ChecksBuffer i s bad effect)
include h

theorem answersFaulted (hf : s.fault ≠ .clear) : AnswersOnly i s .faulted 0 := by
  rw [AnswersOnly, h, guarded_cons, s.faulted_iff.mpr hf]
  rfl

theorem answersInvalidArg (hf : s.fault = .clear) (hbad : bad = true) : AnswersOnly i s .invalidArg 0 := by
  rw [AnswersOnly, h, guarded_cons, s.faulted_eq_false.mpr hf, hbad]
  rfl

theorem answersBusy (hf : s.fault = .clear) (hbad : bad = false)
    (ho : s.rcvState = .receiving ∨ s.sndState = .transmitting) : AnswersOnly i s .busy 0 := by
  have howned : s.owned = true := by simpa [State.owned] using ho
  rw [AnswersOnly, h, guarded_cons, s.faulted_eq_false.mpr hf, hbad, howned]
  rfl

theorem exec_eq_effect (hf : s.fault = .clear) (hbad : bad = false) (hr : s.rcvState ≠ .receiving)
    (ht : s.sndState ≠ .transmitting) : exec i s = effect s.quiet := by
  refine Eq.trans h (guarded_of_all_false ?_)
  simp [s.faulted_eq_false.mpr hf, hbad, s.owned_eq_false.mpr ⟨hr, ht⟩]

end ChecksBuffer

/-- R136. -/
theorem checksBuffer_crc16 (off len : Pos) (s : State) :
    ChecksBuffer (.crc16 off len) s (badRange s off.toNat len.toNat)
      fun t => .next (t.answer .ok ((crc16 (t.memRead off.toNat len.toNat)).setWidth 32)) := rfl

/-- R139. -/
theorem checksBuffer_verify (len : Pos) (s : State) :
    ChecksBuffer (.verify len) s (badRange s 0 len.toNat)
      fun t => .next (t.answer .ok (if verify (t.memRead 0 len.toNat) then 1 else 0)) := rfl

theorem badRange_iff {s : State} {off len : Nat} : badRange s off len = true ↔ s.bufSize < off + len :=
  decide_eq_true_iff

theorem badRange_eq_false_iff {s : State} {off len : Nat} : badRange s off len = false ↔ off + len ≤ s.bufSize :=
  decide_eq_false_iff_not.trans Nat.not_lt

/-- R136: the answer of an unrefused `CRC16`. -/
theorem answersOnly_crc16 {off len : Pos} {s : State} (hf : s.fault = .clear)
    (hb : off.toNat + len.toNat ≤ s.bufSize) (hr : s.rcvState ≠ .receiving) (ht : s.sndState ≠ .transmitting) :
    AnswersOnly (.crc16 off len) s .ok (0#16 ++ crc16 (s.memRead off.toNat len.toNat)) := by
  rw [AnswersOnly, (checksBuffer_crc16 off len s).exec_eq_effect hf (badRange_eq_false_iff.mpr hb) hr ht,
    State.memRead_quiet, BitVec.setWidth_eq_append (by decide)]
  rfl

/-- R139: the answer of an unrefused `VERIFY`. -/
theorem answersOnly_verify {len : Pos} {s : State} (hf : s.fault = .clear) (hb : len.toNat ≤ s.bufSize)
    (hr : s.rcvState ≠ .receiving) (ht : s.sndState ≠ .transmitting) :
    AnswersOnly (.verify len) s .ok (if crc16 (s.memRead 0 len.toNat) = 0#16 then 1 else 0) := by
  have hrange : badRange s 0 len.toNat = false := badRange_eq_false_iff.mpr (by rwa [Nat.zero_add])
  rw [AnswersOnly, (checksBuffer_verify len s).exec_eq_effect hf hrange hr ht, State.memRead_quiet]
  simp only [verify_iff]
  rfl

/-- Settles O18: each check refuses by itself, and an operation that none refuses gives its value. -/
theorem codecOperationsComputeOrRefuse : Obligations.CodecOperationsComputeOrRefuse := by
  intro off len s
  have hc := checksBuffer_crc16 off len s
  have hv := checksBuffer_verify len s
  exact ⟨fun hf => ⟨hc.answersFaulted hf, hv.answersFaulted hf⟩,
    fun hf hb => hc.answersInvalidArg hf (badRange_iff.mpr hb),
    fun hf hb => hv.answersInvalidArg hf (badRange_iff.mpr (by rwa [Nat.zero_add])),
    fun hf ho => ⟨fun hb => hc.answersBusy hf (badRange_eq_false_iff.mpr hb) ho,
      fun hb => hv.answersBusy hf (badRange_eq_false_iff.mpr (by rwa [Nat.zero_add])) ho⟩,
    fun hf hr ht => ⟨fun hb => answersOnly_crc16 hf hb hr ht, fun hb => answersOnly_verify hf hb hr ht⟩⟩

/-! ## The operations that only read -/

/-- R11: a step starts with nothing emitted, so what the step before emitted plays no part. -/
theorem guarded_withOut (cs : List (Bool × Status)) (s : State) (o : Outputs) (effect : State → Result) :
    guarded cs { s with out := o } effect = guarded cs s effect := by
  induction cs with
  | nil => rfl
  | cons c cs ih => rw [guarded_cons, guarded_cons, ih]; rfl

/-- R65: the next state does not depend on the outputs of the last step. -/
theorem exec_withOut (i : Instr) (s : State) (o : Outputs) : exec i { s with out := o } = exec i s := by
  cases i with
  | rdReg | rxByte | txEmpty | tmrExp => rfl
  | _ => exact guarded_withOut _ s o _

/-- Settles O37: each of the five only answers, and no operation reads an answer. -/
theorem readingOperationsArePure : Obligations.ReadingOperationsArePure := by
  intro i s t hi h
  have ht : t = { s with out := t.out } := by
    rcases hi with rfl | ⟨off, len, rfl⟩ | ⟨len, rfl⟩ | ⟨off, rfl⟩ | ⟨idx, rfl⟩ <;> cases exec_did h <;> rfl
  exact ⟨ht, fun j => (congrArg (exec j) ht).trans (exec_withOut j s t.out)⟩

end Sys2Proof.Machine

/-! Proofs. Configuration and control (R150, R151, R155, R158), check by check, and the threshold of R151. -/

namespace Sys2Proof.Machine

/-- R237: every host operation but `RD_REG` tests the latch first. -/
theorem guarded_of_faulted {s : State} (hf : s.fault ≠ .clear) (cs : List (Bool × Status)) (k : State → Result) :
    guarded ((s.faulted, .faulted) :: cs) s k = reply .faulted 0 s := by
  rw [guarded_cons, s.faulted_iff.mpr hf]
  rfl

theorem guarded_of_safe {s : State} (hf : s.fault = .clear) (cs : List (Bool × Status)) (k : State → Result) :
    guarded ((s.faulted, .faulted) :: cs) s k = guarded cs s k := by
  rw [guarded_cons, s.faulted_eq_false.mpr hf]
  rfl

/-- R156, R159, R176: `START`, `STOP` and `SEND` test `configured` next. -/
theorem guarded_of_unconfigured {s : State} (hf : s.fault = .clear) (hc : s.configured = false)
    (cs : List (Bool × Status)) (k : State → Result) :
    guarded ((s.faulted, .faulted) :: (!s.configured, .illegalState) :: cs) s k = reply .illegalState 0 s := by
  rw [guarded_of_safe hf, guarded_cons, hc]
  rfl

theorem guarded_of_configured {s : State} (hf : s.fault = .clear) (hc : s.configured = true)
    (cs : List (Bool × Status)) (k : State → Result) :
    guarded ((s.faulted, .faulted) :: (!s.configured, .illegalState) :: cs) s k = guarded cs s k := by
  rw [guarded_of_safe hf, guarded_cons, hc]
  rfl

/-- R155: an accepted `START`. -/
theorem exec_start_of_configured {s : State} (hf : s.fault = .clear) (hc : s.configured = true) :
    exec .start s =
      .next { s with
        rcvState := .init, rxEn := true, txEn := false,
        tmrMode := .interFrameDelay, tmrThr := s.t35Us, tmrArmed := true,
        out := { rsp := some ⟨.ok, 0⟩, tmr := some (.arm .interFrameDelay s.t35Us) } } :=
  guarded_of_configured hf hc _ _

/-- Settles O13: the two checks refuse in their order, and a `START` that neither refuses is accepted. -/
theorem startSynchronisesOrRefuses : Obligations.StartSynchronisesOrRefuses :=
  fun _ => ⟨fun hf => guarded_of_faulted hf _ _, fun hf hc => guarded_of_unconfigured hf hc _ _,
    exec_start_of_configured⟩

/-- Settles O14: the two checks refuse in their order, and a `STOP` that neither refuses has its effect. -/
theorem stopQuietensOrRefuses : Obligations.StopQuietensOrRefuses :=
  fun _ => ⟨fun hf => guarded_of_faulted hf _ _, fun hf hc => guarded_of_unconfigured hf hc _ _,
    fun hf hc => guarded_of_configured hf hc _ _⟩

theorem badInitOperands_iff {baud : Baud} {parity : BitVec 2} :
    badInitOperands baud parity = true ↔ baud = 0#24 ∨ parity = 3#2 := by
  simp [badInitOperands]

/-- R150: an `INIT` with operands outside their domain. -/
theorem answersOnly_init_invalidArg {baud : Baud} {parity : BitVec 2} {s : State} (hf : s.fault = .clear)
    (hbad : baud = 0#24 ∨ parity = 3#2) : AnswersOnly (.init baud parity) s .invalidArg 0 := by
  refine (guarded_of_safe hf _ _).trans ?_
  rw [guarded_cons, badInitOperands_iff.mpr hbad]
  rfl

/-- R150: an `INIT` with its operands in their domain asks the collaborator. -/
theorem exec_init_of_domain {baud : Baud} {q : Parity} {s : State} (hf : s.fault = .clear) (hb : baud ≠ 0#24) :
    exec (.init baud q.code) s = initWith baud q s.quiet := by
  have hchecks : ∀ c ∈ [(s.faulted, Status.faulted), (badInitOperands baud q.code, Status.invalidArg)],
      c.1 = false := by
    simp [s.faulted_eq_false.mpr hf, badInitOperands, hb, q.code_ne_three]
  rw [exec, execInit, guarded_of_all_false hchecks, q.ofCode_code]

/-- R153: the collaborator refuses, and nothing is stored. -/
theorem initWith_of_refused {s : State} (hw : s.cfgOk = false) (baud : Baud) (q : Parity) :
    initWith baud q s = .next ((s.emitConfig baud q).answer .portError 0) := by
  simp [initWith, hw]

/-- R150: the collaborator accepts, and the configuration is stored. -/
theorem initWith_of_accepted {s : State} (hw : s.cfgOk = true) (baud : Baud) (q : Parity) :
    initWith baud q s = .next (((s.emitConfig baud q).configure baud q).answer .ok 0) := by
  simp [initWith, hw]

/-- Settles O11: the two checks refuse in their order, and after them the collaborator's answer decides. -/
theorem initConfiguresOrRefuses : Obligations.InitConfiguresOrRefuses := by
  refine fun baud parity s =>
    ⟨fun hf => guarded_of_faulted hf _ _, answersOnly_init_invalidArg, fun hf hb q hq => ?domain⟩
  case domain =>
    rw [hq, exec_init_of_domain hf hb]
    exact ⟨fun hw => initWith_of_refused (s := s.quiet) hw baud q,
      fun hw => initWith_of_accepted (s := s.quiet) hw baud q⟩

/-- R151 above `BAUD_FAST_LIMIT`. -/
theorem t35Of_of_fast {baud : Baud} (h : 19200 < baud.toNat) : t35Of baud = 1750 :=
  if_pos h

/-- R151 up to `BAUD_FAST_LIMIT`: the quotient fits in 32 bits. -/
theorem toNat_t35Of_of_slow {baud : Baud} (h : baud.toNat ≤ 19200) :
    (t35Of baud).toNat = 38500000 / baud.toNat := by
  have hfits : 38500000 / baud.toNat < 2 ^ 32 := (Nat.div_le_self _ _).trans_lt (by decide)
  have hslow : t35Of baud = BitVec.ofNat 32 (38500000 / baud.toNat) := if_neg (Nat.not_lt.mpr h)
  rw [hslow, BitVec.toNat_ofNat, Nat.mod_eq_of_lt hfits]

/-- Settles O12: the least quotient is the one at 19200 baud, and no quotient exceeds its dividend. -/
theorem interFrameThresholdFormula : Obligations.InterFrameThresholdFormula := by
  refine fun baud => ⟨t35Of_of_fast, fun hpos hslow => ?_⟩
  rw [toNat_t35Of_of_slow hslow]
  have hleast : 38500000 / 19200 ≤ 38500000 / baud.toNat := Nat.div_le_div_left hslow hpos
  exact ⟨rfl, hleast, Nat.div_le_self _ _⟩

end Sys2Proof.Machine

/-! Proofs. From `START` to the first expiry (R155, R190, R210, R286): the receiver stays in Init, whatever bytes come,
and what the expiry hands out is `Ready`. -/

namespace Sys2Proof.Machine

/-- The run goes on to the end and puts these values, in order, on one of the block's output ports (R11). -/
def Emits {α : Type} (port : Outputs → Option α) (es : List PortEvent) (s : State) (vs : List α) (t : State) : Prop :=
  ∃ outs, runEvents es s = some (outs, t) ∧ outs.filterMap port = vs

section Emits

variable {α : Type} {port : Outputs → Option α}

theorem Emits.nil (s : State) : Emits port [] s [] s := ⟨[], rfl, rfl⟩

theorem Emits.cons {e : PortEvent} {es : List PortEvent} {s t u : State} {o : Option α} {vs : List α}
    (h : serve e s = .next t) (ho : port t.out = o) (hr : Emits port es t vs u) :
    Emits port (e :: es) s (o.toList ++ vs) u := by
  obtain ⟨outs, hrun, rfl⟩ := hr
  refine ⟨t.out :: outs, by rw [runEvents_cons h, hrun]; rfl, ?_⟩
  cases o <;> simp [ho]

end Emits

/-- `t` listens for a quiet bus with the buffer and the position of `s`: what `START` makes of `s`, and every byte
keeps (R155, R190). -/
structure State.SynchronisesFrom (s t : State) : Prop where
  safe : t.fault = .clear
  receiver : t.rcvState = .init
  sender : t.sndState = s.sndState
  rcvPos : t.rcvPos = s.rcvPos
  cell : ∀ k, t.cell k = s.cell k

/-- R155. -/
theorem serve_start_synchronises {s : State} (hf : s.fault = .clear) (hc : s.configured = true) (c : Bool) :
    ∃ t, serve (.command (encode .start) c) s = .next t ∧ t.out.ev = none ∧ s.SynchronisesFrom t :=
  ⟨_, (serve_command_encode rfl c s).trans (exec_start_of_configured (s := { s with cfgOk := c }) hf hc), rfl,
    hf, rfl, rfl, rfl, fun _ => rfl⟩

/-- R190: a byte in Init only arms the inter-frame timer again. -/
theorem exec_rxByte_of_init {s : State} (hf : s.fault = .clear) (hr : s.rcvState = .init) (b : Byte) :
    exec (.rxByte b) s = .next (s.quiet.arm .interFrameDelay s.t35Us) := by
  have hdrop : s.quiet.takeByte b = s.quiet := by simp [State.takeByte, hr]
  rw [exec, execRxByte, unlessFaulted_of_clear hf, hdrop]
  rfl

/-- R210: the receive condition of Init goes before every other. -/
theorem State.expiryEvent_of_init {s : State} (hr : s.rcvState = .init) : s.expiryEvent = some ⟨.ready, .none⟩ := by
  simp [State.expiryEvent, State.receiveEvent, hr]

namespace State.SynchronisesFrom

variable {s t : State} (h : s.SynchronisesFrom t)
include h

theorem serve_rxValid (b : Byte) :
    ∃ u, serve (.rxValid b) t = .next u ∧ u.out.ev = none ∧ s.SynchronisesFrom u :=
  ⟨_, exec_rxByte_of_init h.safe h.receiver b, rfl, { h with }⟩

/-- R210. -/
theorem serve_tmrExpired (hs : s.sndState ≠ .transmitting) (a : Bool) :
    ∃ u, serve (.tmrExpired a) t = .next u ∧ u.out.ev = some ⟨.ready, .none⟩ ∧ u.rcvState = .idle ∧
      u.sndState = .idle ∧ u.tmrArmed = false ∧ u.rcvPos = s.rcvPos ∧ ∀ k, u.cell k = s.cell k :=
  ⟨_, exec_tmrExp_of_not_transmitting h.safe (h.sender ▸ hs), t.quiet.expiryEvent_of_init h.receiver, rfl, rfl, rfl,
    h.rcvPos, h.cell⟩

/-- R190, R286: bytes only put the expiry off. -/
theorem emits_ready (hs : s.sndState ≠ .transmitting) (f : List Byte) (a : Bool) :
    ∃ u, Emits (·.ev) (f.map .rxValid ++ [.tmrExpired a]) t [⟨.ready, .none⟩] u ∧ u.rcvState = .idle ∧
      u.sndState = .idle ∧ u.tmrArmed = false ∧ u.rcvPos = s.rcvPos ∧ ∀ k, u.cell k = s.cell k := by
  induction f generalizing t with
  | nil =>
    obtain ⟨u, hserve, hev, hu⟩ := h.serve_tmrExpired hs a
    exact ⟨u, .cons hserve hev (.nil u), hu⟩
  | cons b f ih =>
    obtain ⟨t', hserve, hev, ht'⟩ := h.serve_rxValid b
    obtain ⟨u, hrun, hu⟩ := ih ht'
    exact ⟨u, .cons hserve hev hrun, hu⟩

end State.SynchronisesFrom

/-- Settles O54: `START` puts the receiver in Init, every byte leaves it there, and the expiry finds it there. -/
theorem startWaitsForAQuietBus : Obligations.StartWaitsForAQuietBus := by
  intro s f a c hf hc hs
  obtain ⟨t, hserve, hev, hsync⟩ := serve_start_synchronises hf hc c
  obtain ⟨u, hrun, hu⟩ := hsync.emits_ready hs f a
  obtain ⟨outs, hall, hevs⟩ := Emits.cons hserve hev hrun
  exact ⟨outs, u, hall, hevs, hu⟩

end Sys2Proof.Machine

/-! Proofs. Frame transfer (R170, R175, R180, R183), check by check, with the cells that each store changes. -/

namespace Sys2Proof.Machine

theorem State.owned_iff (s : State) : s.owned = true ↔ s.rcvState = .receiving ∨ s.sndState = .transmitting := by
  simp [State.owned]

theorem State.sendBusy_iff (s : State) : s.sendBusy = true ↔ s.rcvState ≠ .idle ∨ s.sndState ≠ .idle := by
  simp [State.sendBusy]

theorem badOffset_iff {s : State} {off : Pos} : badOffset s off = true ↔ s.bufSize ≤ off.toNat :=
  decide_eq_true_iff

theorem badOffset_eq_false_iff {s : State} {off : Pos} : badOffset s off = false ↔ off.toNat < s.bufSize :=
  decide_eq_false_iff_not.trans Nat.not_le

theorem badSendLen_iff {s : State} {len : Pos} :
    badSendLen s len = true ↔ len = 0#12 ∨ s.params.pduMax < len.toNat := by
  simp [badSendLen]

/-! ## One cell -/

/-- R180. -/
theorem checksBuffer_bufRd (off : Pos) (s : State) :
    ChecksBuffer (.bufRd off) s (badOffset s off)
      fun t => .next (t.answer .ok ((t.cell off.toNat).setWidth 32)) := rfl

/-- R183. -/
theorem checksBuffer_bufWr (off : Pos) (v : Byte) (s : State) :
    ChecksBuffer (.bufWr off v) s (badOffset s off)
      fun t => .next ((t.setCell off.toNat v).answer .ok 0) := rfl

/-- R180: the answer of an unrefused `BUF_RD`. -/
theorem answersOnly_bufRd {off : Pos} {s : State} (hf : s.fault = .clear) (hb : off.toNat < s.bufSize)
    (hr : s.rcvState ≠ .receiving) (ht : s.sndState ≠ .transmitting) :
    AnswersOnly (.bufRd off) s .ok (0#24 ++ s.cell off.toNat) := by
  rw [AnswersOnly, (checksBuffer_bufRd off s).exec_eq_effect hf (badOffset_eq_false_iff.mpr hb) hr ht,
    State.quiet_cell, BitVec.setWidth_eq_append (by decide)]
  rfl

/-- Settles O19: each check refuses by itself, and a read that none refuses gives its cell. -/
theorem bufferReadReturnsTheCell : Obligations.BufferReadReturnsTheCell := by
  intro off s
  have h := checksBuffer_bufRd off s
  exact ⟨h.answersFaulted, fun hf hb => h.answersInvalidArg hf (badOffset_iff.mpr hb),
    fun hf hb => h.answersBusy hf (badOffset_eq_false_iff.mpr hb), answersOnly_bufRd⟩

/-- Settles O20: each check refuses by itself, and a write that none refuses is one `setCell`. -/
theorem bufferWriteStoresOneCell : Obligations.BufferWriteStoresOneCell := by
  intro off v s
  have h := checksBuffer_bufWr off v s
  refine ⟨h.answersFaulted, fun hf hb => h.answersInvalidArg hf (badOffset_iff.mpr hb),
    fun hf hb => h.answersBusy hf (badOffset_eq_false_iff.mpr hb), fun hf hb hr ht => ?stored⟩
  case stored =>
    exact ⟨_, h.exec_eq_effect hf (badOffset_eq_false_iff.mpr hb) hr ht, rfl, State.cell_setCell_same _ _ _,
      fun a ha => State.cell_setCell_ne _ _ a _ ha⟩

/-! ## `RECEIVE` -/

/-- R170: a `RECEIVE` while the buffer is owned. -/
theorem answersOnly_receive_busy {s : State} (hf : s.fault = .clear)
    (ho : s.rcvState = .receiving ∨ s.sndState = .transmitting) : AnswersOnly .receive s .busy 0 := by
  refine (guarded_of_safe hf _ _).trans ?_
  rw [guarded_cons, s.owned_iff.mpr ho]
  rfl

/-- R170: a `RECEIVE` of fewer bytes than the shortest frame has. -/
theorem answersOnly_receive_short {s : State} (hf : s.fault = .clear) (hr : s.rcvState ≠ .receiving)
    (ht : s.sndState ≠ .transmitting) (hp : s.rcvPos.toNat < 4) : AnswersOnly .receive s .invalid 0 := by
  refine (guarded_of_safe hf _ _).trans ?_
  rw [guarded_cons, s.owned_eq_false.mpr ⟨hr, ht⟩, guarded_cons, Config.minFrame, decide_eq_true hp]
  rfl

/-- R170: a `RECEIVE` that reads its frame answers by what `verify` says of it. -/
theorem exec_receive_of_inside {s : State} (hf : s.fault = .clear) (hr : s.rcvState ≠ .receiving)
    (ht : s.sndState ≠ .transmitting) (hp : 4 ≤ s.rcvPos.toNat) (hb : s.rcvPos.toNat ≤ s.bufSize) :
    exec .receive s =
      if verify (s.memRead 0 s.rcvPos.toNat) then .next (s.quiet.answer .ok s.receiveWord)
      else .next (s.quiet.answer .invalid 0) := by
  rw [exec_receive, execReceive_of_unrefused hf (s.owned_eq_false.mpr ⟨hr, ht⟩) hp, if_neg (Nat.not_lt.mpr hb)]

/-- Settles O17: the checks refuse in their order, and after them the residue of the frame decides. -/
theorem receiveValidatesTheFrame : Obligations.ReceiveValidatesTheFrame := by
  refine fun s => ⟨fun hf => guarded_of_faulted hf _ _, answersOnly_receive_busy, answersOnly_receive_short,
    fun hf hr ht hp hb hcrc => ?residue, fun hf hr ht hp hb hcrc => ?valid⟩
  case residue =>
    rw [AnswersOnly, exec_receive_of_inside hf hr ht hp hb, verify_eq_false_iff.mpr hcrc]
    rfl
  case valid =>
    rw [AnswersOnly, exec_receive_of_inside hf hr ht hp hb, verify_iff.mpr hcrc]
    rfl

/-! ## `SEND` -/

section Send

variable {addr : Byte} {len : Pos} {s : State} (hf : s.fault = .clear) (hc : s.configured = true)
include hf hc

/-- R175: a `SEND` of no byte, or of more than a PDU may have. -/
theorem answersOnly_send_invalidArg (hbad : len = 0#12 ∨ s.params.pduMax < len.toNat) :
    AnswersOnly (.send addr len) s .invalidArg 0 := by
  refine (guarded_of_configured hf hc _ _).trans ?_
  rw [guarded_cons, badSendLen_iff.mpr hbad]
  rfl

variable (hne : len ≠ 0#12) (hmax : len.toNat ≤ s.params.pduMax)
include hne hmax

/-- R175: a `SEND` that passes the first three checks has `Busy` as the only refusal left. -/
theorem exec_send_of_domain :
    exec (.send addr len) s =
      guarded [(s.sendBusy, .busy)] s
        fun t => .next (((t.putFrame addr len).startSending len).answer .ok 0) := by
  have hlen : badSendLen s len = false := badSendLen_eq_false (by bv_omega) hmax
  refine (guarded_of_configured hf hc _ _).trans ?_
  rw [guarded_cons, hlen]
  rfl

/-- R175: a `SEND` while a frame comes in, goes out or is waited for. -/
theorem answersOnly_send_busy (hbusy : s.rcvState ≠ .idle ∨ s.sndState ≠ .idle) :
    AnswersOnly (.send addr len) s .busy 0 := by
  rw [AnswersOnly, exec_send_of_domain hf hc hne hmax, guarded_cons, s.sendBusy_iff.mpr hbusy]
  rfl

/-- R175: an accepted `SEND`; no choice of `PDU_MAX` is ruled out (R7). -/
theorem exec_send_of_idle (hr : s.rcvState = .idle) (hs : s.sndState = .idle) :
    exec (.send addr len) s = .next (((s.quiet.putFrame addr len).startSending len).answer .ok 0) := by
  rw [exec_send_of_domain hf hc hne hmax, guarded_cons, s.sendBusy_eq_false.mpr ⟨hr, hs⟩]
  rfl

end Send

/-- R175: an accepted `SEND` writes the buffer, the transmit registers and the line enables. -/
theorem sent_eq (addr : Byte) (len : Pos) (s : State) :
    ((s.quiet.putFrame addr len).startSending len).answer .ok 0 =
      { s with
        buf := (s.quiet.putFrame addr len).buf, sndPtr := 0, sndCnt := BitVec.ofNat 12 (len.toNat + 3),
        sndState := .transmitting, rxEn := false, txEn := true, out := { rsp := some ⟨.ok, 0⟩ } } := by
  rw [State.putFrame_eq]
  rfl

/-- Settles O16: the checks refuse in their order, and what `SEND` stores is what `putFrame` leaves in each cell. -/
theorem sendFramesInPlaceOrRefuses : Obligations.SendFramesInPlaceOrRefuses := by
  refine fun addr len s => ⟨fun hf => guarded_of_faulted hf _ _, fun hf hc => guarded_of_unconfigured hf hc _ _,
    answersOnly_send_invalidArg, answersOnly_send_busy, fun hf hc hne hmax hr hs => ?accepted⟩
  case accepted =>
    have hcell (a : Nat) := s.quiet.cell_putFrame addr len a
    rw [State.memRead_quiet] at hcell
    refine ⟨_, exec_send_of_idle hf hc hne hmax hr hs, sent_eq addr len s, ?address, ?low, ?high,
      fun a h0 h1 h2 => ?kept⟩
    case address => exact (hcell 0).trans (if_pos rfl)
    case low => simp [hcell, crcLo]
    case high => simp [hcell, crcHi]
    case kept => simp [hcell, h0, h1, h2]

end Sys2Proof.Machine

/-! Proofs. One received byte (R190 to R192): what it does in each receiver state. -/

namespace Sys2Proof.Machine

/-- R190 to R192: whatever the byte did, the inter-frame timer is armed. -/
theorem exec_rxByte_of_safe {s : State} (hf : s.fault = .clear) (b : Byte) :
    exec (.rxByte b) s = .next ((s.quiet.takeByte b).arm .interFrameDelay s.t35Us) := by
  rw [exec, execRxByte, unlessFaulted_of_clear hf]
  rfl

section TakeByte

variable {s : State}

/-- R190. -/
theorem State.takeByte_of_dropping (hr : s.rcvState = .init ∨ s.rcvState = .error) (b : Byte) : s.takeByte b = s := by
  rcases hr with hr | hr <;> simp [State.takeByte, hr]

/-- R191. -/
theorem State.takeByte_of_idle (hr : s.rcvState = .idle) (b : Byte) :
    s.takeByte b = { s.setCell 0 b with rcvPos := 1, rcvState := .receiving } := by
  simp [State.takeByte, hr]

/-- R192 while the buffer is not full. -/
theorem State.takeByte_of_room (hr : s.rcvState = .receiving) (hp : s.rcvPos.toNat < s.bufSize) (b : Byte) :
    s.takeByte b = { s.setCell s.rcvPos.toNat b with rcvPos := s.rcvPos + 1 } := by
  simp [State.takeByte, hr, hp]

/-- R192 once the buffer is full. -/
theorem State.takeByte_of_full (hr : s.rcvState = .receiving) (hp : s.bufSize ≤ s.rcvPos.toNat) (b : Byte) :
    s.takeByte b = { s with rcvState := .error } := by
  simp [State.takeByte, hr, hp]

/-- R193: taking a byte emits nothing by itself. -/
@[simp] theorem State.takeByte_out (s : State) (b : Byte) : (s.takeByte b).out = s.out := by
  rcases s.takeByte_cases b with ⟨-, h⟩ | ⟨-, h⟩ | ⟨-, -, h⟩ | ⟨-, -, h⟩ <;> rw [h] <;> rfl

end TakeByte

/-- Settles O21: the byte leaves the receiver as it is, and the timer is armed. -/
theorem byteOnABusyBusIsDropped : Obligations.ByteOnABusyBusIsDropped := by
  intro b s hf hr
  rw [exec_rxByte_of_safe hf, State.takeByte_of_dropping (s := s.quiet) hr]
  rfl

/-- Settles O22: the byte is one store, to cell 0. -/
theorem byteInIdleStartsAFrame : Obligations.ByteInIdleStartsAFrame := by
  intro b s hf hr
  rw [exec_rxByte_of_safe hf, State.takeByte_of_idle (s := s.quiet) hr]
  exact ⟨_, rfl, rfl, s.cell_setCell_same 0 b, fun a ha => s.cell_setCell_ne 0 a b ha⟩

/-- Settles O23: the byte is one store, to the cell at `rcv_pos`, or none. -/
theorem byteInReceivingIsAppendedOrOversized : Obligations.ByteInReceivingIsAppendedOrOversized := by
  refine fun b s hf hr => ⟨fun hp => ?appended, fun hp => ?oversized⟩
  case appended =>
    rw [exec_rxByte_of_safe hf, State.takeByte_of_room (s := s.quiet) hr hp]
    exact ⟨_, rfl, rfl, s.cell_setCell_same _ b, fun a ha => s.cell_setCell_ne _ a b ha⟩
  case oversized =>
    rw [exec_rxByte_of_safe hf, State.takeByte_of_full (s := s.quiet) hr hp]
    rfl

end Sys2Proof.Machine

/-! Proofs. A frame on its way in (R191, R192, R210, R170): the bytes fill the buffer, the expiry after them tells the
host whether all of them fitted, and `RECEIVE` parses the ones that did. -/

namespace Sys2Proof.Machine

/-! ## Runs with known outputs -/

theorem runEvents_singleton {e : PortEvent} {s t : State} (h : serve e s = .next t) :
    runEvents [e] s = some ([t.out], t) :=
  runEvents_cons h []

theorem runEvents_append_of_eq {x y : List PortEvent} {s t u : State} {o q : List Outputs}
    (hx : runEvents x s = some (o, t)) (hy : runEvents y t = some (q, u)) :
    runEvents (x ++ y) s = some (o ++ q, u) := by
  rw [runEvents_append, hx, Option.bind_some, hy]
  rfl

/-! ## The bytes -/

/-- R192: the byte stored behind a range extends what is read of it. -/
theorem State.memRead_setCell_end (s : State) (off n : Nat) (v : Byte) :
    (s.setCell (off + n) v).memRead off (n + 1) = s.memRead off n ++ [v] := by
  have hkept : (s.setCell (off + n) v).memRead off n = s.memRead off n :=
    State.memRead_congr _ _ _ _ fun k _ hk => State.cell_setCell_ne _ _ _ _ (Nat.ne_of_lt hk)
  rw [State.memRead_add, hkept, State.memRead_succ, State.cell_setCell_same, State.memRead_zero]

/-- `buf[0 .. rcv_pos-1]`: the bytes received (R31), the range that `RECEIVE` reads (R170). -/
def State.received (s : State) : List Byte := s.memRead 0 s.rcvPos.toNat

@[simp] theorem State.length_received (s : State) : s.received.length = s.rcvPos.toNat := s.length_memRead _ _

theorem State.received_of_kept {s t : State} {f : List Byte} (h : s.received = f) (hbuf : t.buf = s.buf)
    (hepoch : t.resetEpoch = s.resetEpoch) (hpos : t.rcvPos = s.rcvPos) : t.received = f := by
  rw [← h, State.received, State.received, hpos]
  exact State.memRead_of_buf _ _ _ _ hbuf hepoch

/-- R192: a byte stored at `rcv_pos` is received once `rcv_pos` has moved past it. -/
theorem State.received_append {s t : State} {b : Byte} (hbuf : t.buf = (s.setCell s.rcvPos.toNat b).buf)
    (hepoch : t.resetEpoch = s.resetEpoch) (hpos : t.rcvPos.toNat = s.rcvPos.toNat + 1) :
    t.received = s.received ++ [b] := by
  have hend := s.memRead_setCell_end 0 s.rcvPos.toNat b
  rw [Nat.zero_add] at hend
  rw [State.received, hpos, State.memRead_of_buf t (s.setCell s.rcvPos.toNat b) _ _ hbuf hepoch, hend, State.received]

theorem State.bufSize_lt_of_legal {s : State} (hp : s.params.Legal) : s.bufSize < 4096 := by
  have hmax := hp.2
  rw [s.bufSize_eq]
  omega

/-- What a step that serves a received byte emits (R190 to R192). -/
def State.byteOut (s : State) : Outputs := { tmr := some (.arm .interFrameDelay s.t35Us) }

/-- `t` is what the bytes `f` of one frame make of the idle receiver `s`: the buffer holds as many of them as fit, and
the receiver is in Error from the first one that did not (R191, R192). -/
structure State.TakesFrame (s : State) (f : List Byte) (t : State) : Prop where
  safe : t.fault = .clear
  sender : t.sndState = s.sndState
  params : t.params = s.params
  threshold : t.t35Us = s.t35Us
  receiver : t.rcvState = if f.length ≤ s.bufSize then .receiving else .error
  stored : t.received = f.take s.bufSize

/-- R191: the first byte. -/
theorem State.takesFrame_first {s : State} (hf : s.fault = .clear) (hr : s.rcvState = .idle) (b : Byte) :
    s.TakesFrame [b] (s.quiet.takeByte b) := by
  rw [State.takeByte_of_idle (s := s.quiet) hr]
  exact
    { safe := hf
      sender := rfl
      params := rfl
      threshold := rfl
      receiver := (if_pos (by simp [s.bufSize_eq])).symm
      stored := (State.memRead_of_buf _ (s.setCell 0 b) 0 1 rfl rfl).trans (s.memRead_setCell_end 0 0 b) }

namespace State.TakesFrame

variable {s t : State} {f : List Byte} (h : s.TakesFrame f t)
include h

theorem bufSize_eq : t.bufSize = s.bufSize := by rw [State.bufSize, h.params]; rfl

theorem toNat_rcvPos : t.rcvPos.toNat = min s.bufSize f.length := by
  rw [← t.length_received, h.stored, List.length_take]

theorem quiet : s.TakesFrame f t.quiet :=
  { h with stored := State.received_of_kept h.stored rfl rfl rfl }

theorem arm (m : TmrMode) (thr : Word) : s.TakesFrame f (t.arm m thr) :=
  { h with stored := State.received_of_kept h.stored rfl rfl rfl }

/-- R192: a byte that still fits is appended. -/
theorem takeByte_of_room (hp : s.params.Legal) (hroom : f.length < s.bufSize) (b : Byte) :
    s.TakesFrame (f ++ [b]) (t.takeByte b) := by
  have hsize := State.bufSize_lt_of_legal hp
  have hpos : t.rcvPos.toNat = f.length := h.toNat_rcvPos.trans (Nat.min_eq_right hroom.le)
  have hnext : (t.rcvPos + 1).toNat = t.rcvPos.toNat + 1 := by bv_omega
  have hr : t.rcvState = .receiving := h.receiver.trans (if_pos hroom.le)
  have hall : t.received = f := h.stored.trans (List.take_of_length_le hroom.le)
  rw [State.takeByte_of_room hr (by rwa [hpos, h.bufSize_eq])]
  exact
    { h with
      receiver := hr.trans (if_pos (by simpa using hroom)).symm
      stored := by
        rw [List.take_of_length_le (by simpa using hroom), ← hall]
        exact State.received_append rfl rfl hnext }

/-- R190, R192: a byte that does not fit leaves the buffer as it is and the receiver in Error. -/
theorem takeByte_of_full (hfull : s.bufSize ≤ f.length) (b : Byte) : s.TakesFrame (f ++ [b]) (t.takeByte b) := by
  have herror : t.takeByte b = { t with rcvState := .error } := by
    by_cases hlen : f.length ≤ s.bufSize
    · have hpos : t.bufSize ≤ t.rcvPos.toNat := by
        rw [h.toNat_rcvPos, h.bufSize_eq]
        exact Nat.le_min.mpr ⟨le_rfl, hfull⟩
      exact State.takeByte_of_full (h.receiver.trans (if_pos hlen)) hpos b
    · have hr : t.rcvState = .error := h.receiver.trans (if_neg hlen)
      rw [State.takeByte_of_dropping (.inr hr), ← hr]
  rw [herror]
  exact
    { h with
      receiver := (if_neg (by simpa using hfull)).symm
      stored := by
        rw [List.take_append_of_le_length hfull]
        exact State.received_of_kept h.stored rfl rfl rfl }

/-- R190, R192: the next byte, whether it fits or not. -/
theorem takeByte (hp : s.params.Legal) (b : Byte) : s.TakesFrame (f ++ [b]) (t.takeByte b) :=
  (Nat.lt_or_ge f.length s.bufSize).elim (h.takeByte_of_room hp · b) (h.takeByte_of_full · b)

theorem serve_rxValid (hp : s.params.Legal) (b : Byte) :
    ∃ u, serve (.rxValid b) t = .next u ∧ u.out = s.byteOut ∧ s.TakesFrame (f ++ [b]) u :=
  ⟨_, exec_rxByte_of_safe h.safe b, by simp [State.byteOut, h.threshold], (h.quiet.takeByte hp b).arm _ _⟩

/-- The rest of the bytes, one after another. -/
theorem run_bytes (hp : s.params.Legal) (g : List Byte) :
    ∃ u, runEvents (g.map .rxValid) t = some (List.replicate g.length s.byteOut, u) ∧ s.TakesFrame (f ++ g) u := by
  induction g generalizing f t with
  | nil => exact ⟨t, rfl, by rwa [List.append_nil]⟩
  | cons b g ih =>
    obtain ⟨t', hserve, hout, ht'⟩ := h.serve_rxValid hp b
    obtain ⟨u, hrun, hu⟩ := ih ht'
    refine ⟨u, ?_, by rwa [List.append_assoc] at hu⟩
    rw [List.map_cons, runEvents_cons hserve, hrun, hout]
    rfl

end State.TakesFrame

/-- R191, R192: a whole frame, from its first byte. -/
theorem run_frame {s : State} (hp : s.params.Legal) (hf : s.fault = .clear) (hr : s.rcvState = .idle)
    {f : List Byte} (hne : f ≠ []) :
    ∃ t, runEvents (f.map .rxValid) s = some (List.replicate f.length s.byteOut, t) ∧ s.TakesFrame f t := by
  obtain ⟨b, g, rfl⟩ := List.exists_cons_of_ne_nil hne
  have hserve : serve (.rxValid b) s = .next ((s.quiet.takeByte b).arm .interFrameDelay s.t35Us) :=
    exec_rxByte_of_safe hf b
  obtain ⟨t, hrun, ht⟩ := ((State.takesFrame_first hf hr b).arm .interFrameDelay s.t35Us).run_bytes hp g
  refine ⟨t, ?_, ht⟩
  rw [List.map_cons, runEvents_cons hserve, hrun]
  simp [State.byteOut, List.replicate_succ]

/-! ## The expiry -/

/-- R210, R214: the receive condition goes before the two others. -/
theorem State.expiryEvent_of_receiveEvent {s : State} {e : Event} (h : s.receiveEvent = some e) :
    s.expiryEvent = some e := by
  simp [State.expiryEvent, h]

/-- What the host is told of a frame, by whether it fits the buffer (R210). -/
def State.frameEvent (s : State) (f : List Byte) : Event :=
  if f.length ≤ s.bufSize then ⟨.frameReceived, .none⟩ else ⟨.errorProcess, .receiveDataError⟩

theorem State.TakesFrame.receiveEvent {s t : State} {f : List Byte} (h : s.TakesFrame f t) :
    t.receiveEvent = some (s.frameEvent f) := by
  rw [State.receiveEvent, h.receiver, State.frameEvent]
  by_cases hfits : f.length ≤ s.bufSize <;> simp [hfits]

/-- What the expiry after a frame emits (R210, R215). -/
def State.silenceOut (s : State) (f : List Byte) : Outputs := { tmr := some .disarm, ev := some (s.frameEvent f) }

/-- `u` is at rest, with as many of the bytes `f` in the buffer as fit that of `s` (R210, R215). -/
structure State.EndsFrame (s : State) (f : List Byte) (u : State) : Prop where
  safe : u.fault = .clear
  params : u.params = s.params
  receiver : u.rcvState = .idle
  sender : u.sndState = .idle
  timer : u.tmrArmed = false
  stored : u.received = f.take s.bufSize

theorem State.EndsFrame.toNat_rcvPos {s u : State} {f : List Byte} (h : s.EndsFrame f u) :
    u.rcvPos.toNat = min s.bufSize f.length := by
  rw [← u.length_received, h.stored, List.length_take]

theorem State.TakesFrame.serve_tmrExpired {s t : State} {f : List Byte} (h : s.TakesFrame f t)
    (hs : s.sndState ≠ .transmitting) (a : Bool) :
    ∃ u, serve (.tmrExpired a) t = .next u ∧ u.out = s.silenceOut f ∧ s.EndsFrame f u := by
  have hserve := exec_tmrExp_of_not_transmitting h.safe (h.sender ▸ hs)
  rw [State.expiryEvent_of_receiveEvent h.quiet.receiveEvent] at hserve
  exact ⟨_, hserve, rfl,
    { safe := h.safe
      params := h.params
      receiver := rfl
      sender := rfl
      timer := rfl
      stored := State.received_of_kept h.stored rfl rfl rfl }⟩

/-- R191, R192, R210: a whole frame, then silence. -/
theorem run_frame_silence {s : State} (hp : s.params.Legal) (hf : s.fault = .clear) (hr : s.rcvState = .idle)
    (hs : s.sndState ≠ .transmitting) {f : List Byte} (hne : f ≠ []) (a : Bool) :
    ∃ u, runEvents (f.map .rxValid ++ [.tmrExpired a]) s =
        some (List.replicate f.length s.byteOut ++ [s.silenceOut f], u) ∧
      s.EndsFrame f u := by
  obtain ⟨t, hbytes, ht⟩ := run_frame hp hf hr hne
  obtain ⟨u, hserve, hout, hu⟩ := ht.serve_tmrExpired hs a
  exact ⟨u, hout ▸ runEvents_append_of_eq hbytes (runEvents_singleton hserve), hu⟩

/-- R190 to R192: the bytes hand out no event and answer nothing. -/
theorem filterMap_replicate_byteOut {α : Type} {port : Outputs → Option α} {s : State} (h : port s.byteOut = none)
    (n : Nat) : (List.replicate n s.byteOut).filterMap port = [] :=
  List.filterMap_eq_nil_iff.mpr fun _ ho => List.eq_of_mem_replicate ho ▸ h

/-- Settles O53: bytes past the last cell are dropped, and the expiry finds the receiver in Error. -/
theorem oversizedFrameIsReported : Obligations.OversizedFrameIsReported := by
  intro s f a hp hf hr hs hlong
  have hne : f ≠ [] := List.ne_nil_of_length_pos (Nat.zero_lt_of_lt hlong)
  obtain ⟨u, hrun, hu⟩ := run_frame_silence hp hf hr hs hne a
  have hpos : u.rcvPos.toNat = s.bufSize := hu.toNat_rcvPos.trans (Nat.min_eq_left hlong.le)
  have hevent : s.frameEvent f = ⟨.errorProcess, .receiveDataError⟩ := if_neg (Nat.not_le.mpr hlong)
  refine ⟨_, u, hrun, ?events, hpos ▸ hu.stored, hpos, hu.receiver⟩
  case events => rw [List.filterMap_append, filterMap_replicate_byteOut rfl, ← hevent]; rfl

/-! ## `RECEIVE` -/

/-- R135: too few bytes, or a residue. -/
theorem parseFrame_eq_none {f : List Byte} (h : f.length < 4 ∨ verify f = false) : parseFrame f = none := by
  cases f with
  | nil => rfl
  | cons addr rest =>
    refine if_neg fun ⟨hlen, hv⟩ => ?_
    rcases h with h | h
    · exact absurd hlen (Nat.not_le.mpr h)
    · simp [h] at hv

/-- R135: a frame that verifies. -/
theorem parseFrame_eq_some {addr : Byte} {rest : List Byte} (hlen : 4 ≤ (addr :: rest).length)
    (hv : verify (addr :: rest) = true) :
    parseFrame (addr :: rest) = some (addr, rest.take ((addr :: rest).length - 3)) :=
  if_pos ⟨hlen, hv⟩

/-- What `RECEIVE` says of the bytes `f` (R170, R135). -/
def receiveResponse (f : List Byte) : Response :=
  match parseFrame f with
  | some (addr, pdu) => ⟨.ok, 0#8 ++ addr ++ 0#4 ++ BitVec.ofNat 12 pdu.length⟩
  | none => ⟨.invalid, 0⟩

theorem receiveResponse_of_invalid {f : List Byte} (h : f.length < 4 ∨ verify f = false) :
    receiveResponse f = ⟨.invalid, 0⟩ := by
  rw [receiveResponse, parseFrame_eq_none h]

/-- R170: the answer to a valid frame is its first cell and its length less three. -/
theorem receiveResponse_of_valid {s : State} (hlen : 4 ≤ s.rcvPos.toNat) (hv : verify s.received = true) :
    receiveResponse s.received = ⟨.ok, s.receiveWord⟩ := by
  obtain ⟨n, hn⟩ := Nat.exists_eq_add_of_le' hlen
  have hcells : s.received = s.cell 0 :: s.memRead 1 (n + 3) := by rw [State.received, hn, State.memRead_succ]
  have hword : BitVec.ofNat 12 (n + 1) = s.rcvPos - 3 := by bv_omega
  rw [hcells] at hv ⊢
  rw [receiveResponse, parseFrame_eq_some (by simp) hv]
  simp [State.receiveWord, hword]

/-- R170: with `rcv_pos` inside the buffer, `RECEIVE` answers by `parse_frame` of the bytes received. -/
theorem exec_receive_answers {s : State} (hf : s.fault = .clear) (hr : s.rcvState ≠ .receiving)
    (hs : s.sndState ≠ .transmitting) (hb : s.rcvPos.toNat ≤ s.bufSize) :
    exec .receive s = .next { s with out := { rsp := some (receiveResponse s.received) } } := by
  rcases Nat.lt_or_ge s.rcvPos.toNat 4 with hlen | hlen
  · rw [receiveResponse_of_invalid (.inl (by rwa [State.length_received]))]
    exact answersOnly_receive_short hf hr hs hlen
  · rw [exec_receive_of_inside hf hr hs hlen hb, ← State.received]
    cases hv : verify s.received with
    | true => rw [receiveResponse_of_valid hlen hv]; rfl
    | false => rw [receiveResponse_of_invalid (.inr hv)]; rfl

/-- R170, R171: a `RECEIVE` of a frame that fitted answers by its bytes and leaves them where they are. -/
theorem State.EndsFrame.serve_receive {s u : State} {f : List Byte} (h : s.EndsFrame f u)
    (hfits : f.length ≤ s.bufSize) (c : Bool) :
    ∃ t, serve (.command (encode .receive) c) u = .next t ∧ t.out = { rsp := some (receiveResponse f) } ∧
      s.EndsFrame f t := by
  have hread : State.received { u with cfgOk := c } = f :=
    State.received_of_kept (h.stored.trans (List.take_of_length_le hfits)) rfl rfl rfl
  have hin : u.rcvPos.toNat ≤ u.bufSize := by
    rw [h.toNat_rcvPos, u.bufSize_eq, h.params, ← s.bufSize_eq]
    exact Nat.min_le_left _ _
  have hserve := (serve_command_encode rfl c u).trans
    (exec_receive_answers (s := { u with cfgOk := c }) h.safe (by simp [h.receiver]) (by simp [h.sender]) hin)
  exact ⟨_, hserve, by rw [hread], { h with stored := State.received_of_kept h.stored rfl rfl rfl }⟩

/-- Settles O52: every byte fits, the expiry finds the receiver in Receiving, and `RECEIVE` reads what came. -/
theorem receivedFrameIsParsed : Obligations.ReceivedFrameIsParsed := by
  intro s f a c hp hf hr hs hpos hfits
  obtain ⟨u, hrun, hu⟩ := run_frame_silence hp hf hr hs (List.ne_nil_of_length_pos hpos) a
  obtain ⟨t, hserve, hout, ht⟩ := hu.serve_receive hfits c
  have hlen : t.rcvPos.toNat = f.length := ht.toNat_rcvPos.trans (Nat.min_eq_right hfits)
  have hstored : t.memRead 0 f.length = f := hlen ▸ ht.stored.trans (List.take_of_length_le hfits)
  have hevent : s.frameEvent f = ⟨.frameReceived, .none⟩ := if_pos hfits
  refine ⟨_, t, runEvents_append_of_eq hrun (runEvents_singleton hserve), ?events, ?answer, hstored, hlen,
    ht.receiver, ht.sender, ht.timer⟩
  case events =>
    rw [hout, List.filterMap_append, List.filterMap_append, filterMap_replicate_byteOut rfl, ← hevent]
    rfl
  case answer =>
    rw [hout, List.filterMap_append, List.filterMap_append, filterMap_replicate_byteOut rfl]
    rfl

end Sys2Proof.Machine

/-! Proofs. `TX_EMPTY` in each transmitter state (R200 to R203), and the expiry that breaches R211. -/

namespace Sys2Proof.Machine

/-- R200. -/
theorem execTxEmpty_of_idle {s : State} (hf : s.fault = .clear) (hs : s.sndState = .idle) :
    execTxEmpty s = .next { s.quiet with rxEn := true, txEn := false } := by
  simp [execTxEmpty, unlessFaulted_of_clear hf, hs]

/-- R203. -/
theorem execTxEmpty_of_waiting {s : State} (hf : s.fault = .clear) (hs : s.sndState = .waitFollowUp) :
    execTxEmpty s = .next (s.quiet.raiseAssert .txEmptyInWaitFollowUp) := by
  simp [execTxEmpty, unlessFaulted_of_clear hf, hs]

/-- R211: the fault is raised before any of the three conditions is evaluated. -/
theorem exec_tmrExp_of_transmitting {s : State} (hf : s.fault = .clear) (hs : s.sndState = .transmitting) :
    exec .tmrExp s = .next (s.quiet.raiseAssert .timerWhileTransmitting) := by
  simp [exec, execTmrExp, unlessFaulted_of_clear hf, hs]

/-- Settles O24: the transmitter is at rest, so only the direction of the line is written. -/
theorem txEmptyInIdleReenablesReceive : Obligations.TxEmptyInIdleReenablesReceive :=
  fun _ hf hs => execTxEmpty_of_idle hf hs

/-- Settles O25: bytes remain, and the cell at `snd_ptr` is one of the buffer's. -/
theorem txEmptyEmitsTheNextByte : Obligations.TxEmptyEmitsTheNextByte := by
  intro s hf hs hc hp
  rw [exec_txEmpty, execTxEmpty_of_remaining hf hs hc, sendNextByte_of_inside (s := s.quiet) hp]
  rfl

/-- Settles O26: no byte remains, and the address in cell 0 decides what is timed. -/
theorem txEmptyCompletesTheTransmission : Obligations.TxEmptyCompletesTheTransmission := by
  intro s hf hs hc
  rw [exec_txEmpty, execTxEmpty_of_none_remaining hf hs hc]
  refine ⟨fun h0 => ?broadcast, fun h0 => ?unicast⟩
  case broadcast =>
    have ⟨_, heq⟩ := s.quiet.completeSending_eq.resolve_right fun ⟨hne, _⟩ => hne h0
    rw [heq]
    rfl
  case unicast =>
    have ⟨_, heq⟩ := s.quiet.completeSending_eq.resolve_left fun ⟨hz, _⟩ => h0 hz
    rw [heq]
    rfl

/-- Settles O27: each breach raises its fault, which writes the latch alone. -/
theorem contractBreachesSetTheFaultLatch : Obligations.ContractBreachesSetTheFaultLatch :=
  ⟨fun _ hf hs => execTxEmpty_of_waiting hf hs, fun _ hf hs => exec_tmrExp_of_transmitting hf hs⟩

end Sys2Proof.Machine

/-! Proofs. The one event of an expiry, by the first of the three conditions that holds (R212 to R215). -/

namespace Sys2Proof.Machine

/-! ## The conditions -/

/-- R210. -/
theorem State.receiveEvent_of_idle {s : State} (hr : s.rcvState = .idle) : s.receiveEvent = none := by
  simp [State.receiveEvent, hr]

/-- R212. -/
theorem State.sendEvent_of_unicast {s : State} (hs : s.sndState = .waitFollowUp) (hb : s.isBcast = false) :
    s.sendEvent = some ⟨.errorProcess, .respondTimeout⟩ := by
  simp [State.sendEvent, hs, hb]

/-- R212: a broadcast awaits no reply. -/
theorem State.sendEvent_of_isBcast {s : State} (hb : s.isBcast = true) : s.sendEvent = none := by
  simp [State.sendEvent, hb]

/-- R212. -/
theorem State.sendEvent_of_idle {s : State} (hs : s.sndState = .idle) : s.sendEvent = none := by
  simp [State.sendEvent, hs]

/-- R213. -/
theorem State.modeEvent_of_convertDelay {s : State} (hm : s.tmrMode = .convertDelay) :
    s.modeEvent = some ⟨.execute, .none⟩ := by
  simp [State.modeEvent, hm]

/-- R213. -/
theorem State.modeEvent_of_other {s : State} (hm : s.tmrMode ≠ .convertDelay) : s.modeEvent = none := by
  simp [State.modeEvent, hm]

/-! ## The selection -/

/-- R210: the end of a frame. -/
theorem State.expiryEvent_of_receiving {s : State} (hr : s.rcvState = .receiving) :
    s.expiryEvent = some ⟨.frameReceived, .none⟩ :=
  State.expiryEvent_of_receiveEvent (by rw [State.receiveEvent, hr])

/-- R210: the end of a frame that did not fit. -/
theorem State.expiryEvent_of_error {s : State} (hr : s.rcvState = .error) :
    s.expiryEvent = some ⟨.errorProcess, .receiveDataError⟩ :=
  State.expiryEvent_of_receiveEvent (by rw [State.receiveEvent, hr])

/-- R214: the send condition goes before the expired mode. -/
theorem State.expiryEvent_of_sendEvent {s : State} {e : Event} (hr : s.rcvState = .idle)
    (hs : s.sendEvent = some e) : s.expiryEvent = some e := by
  simp [State.expiryEvent, State.receiveEvent_of_idle hr, hs]

/-- R214: the expired mode decides when the two other conditions fail. -/
theorem State.expiryEvent_of_no_sendEvent {s : State} (hr : s.rcvState = .idle) (hs : s.sendEvent = none) :
    s.expiryEvent = s.modeEvent := by
  simp [State.expiryEvent, State.receiveEvent_of_idle hr, hs]

/-! ## The decision table -/

/-- R210: the three writes of an expiry, whatever event it hands out. -/
theorem exec_tmrExp_of_expiryEvent {s : State} {ev : Option Event} (hf : s.fault = .clear)
    (hs : s.sndState ≠ .transmitting) (hev : s.expiryEvent = ev) :
    exec .tmrExp s = .next { s with
      rcvState := .idle, sndState := .idle, tmrArmed := false, out := { tmr := some .disarm, ev := ev } } :=
  hev ▸ exec_tmrExp_of_not_transmitting hf hs

/-- Settles O28: in each row the state decides which of the three conditions is the first that holds. -/
theorem expiryFollowsTheDecisionTable : Obligations.ExpiryFollowsTheDecisionTable := by
  intro s hf after
  refine ⟨exec_tmrExp_of_transmitting hf, fun hs hr => ?init, fun hs hr => ?receiving, fun hs hr => ?error,
    fun hs hr hb => ?unicast, fun hs hr hb hm => ?broadcastDelay, fun hs hr hb hm => ?broadcastOther,
    fun hs hr hm => ?idleDelay, fun hs hr hm => ?idleOther⟩
  case init => exact exec_tmrExp_of_expiryEvent hf hs (State.expiryEvent_of_init hr)
  case receiving => exact exec_tmrExp_of_expiryEvent hf hs (State.expiryEvent_of_receiving hr)
  case error => exact exec_tmrExp_of_expiryEvent hf hs (State.expiryEvent_of_error hr)
  case unicast =>
    exact exec_tmrExp_of_expiryEvent hf (by simp [hs])
      (State.expiryEvent_of_sendEvent hr (State.sendEvent_of_unicast hs hb))
  case broadcastDelay =>
    have hev := State.expiryEvent_of_no_sendEvent hr (State.sendEvent_of_isBcast hb)
    exact exec_tmrExp_of_expiryEvent hf (by simp [hs]) (hev.trans (State.modeEvent_of_convertDelay hm))
  case broadcastOther =>
    have hev := State.expiryEvent_of_no_sendEvent hr (State.sendEvent_of_isBcast hb)
    exact exec_tmrExp_of_expiryEvent hf (by simp [hs]) (hev.trans (State.modeEvent_of_other hm))
  case idleDelay =>
    have hev := State.expiryEvent_of_no_sendEvent hr (State.sendEvent_of_idle hs)
    exact exec_tmrExp_of_expiryEvent hf (by simp [hs]) (hev.trans (State.modeEvent_of_convertDelay hm))
  case idleOther =>
    have hev := State.expiryEvent_of_no_sendEvent hr (State.sendEvent_of_idle hs)
    exact exec_tmrExp_of_expiryEvent hf (by simp [hs]) (hev.trans (State.modeEvent_of_other hm))

end Sys2Proof.Machine

/-! Proofs. What a Faulted block refuses (R236), what a refusal leaves unchanged (R230), and which operation each output
comes from (R238 to R246). -/

namespace Sys2Proof.Machine

/-! ## While Faulted -/

/-- R236: a stimulus does nothing at all. -/
theorem unlessFaulted_of_faulted {s : State} (hf : s.fault ≠ .clear) (k : State → Result) :
    unlessFaulted s k = .next s.quiet := by
  simp [unlessFaulted, hf]

/-- Settles O29: the latch is the first thing that a host operation other than `RD_REG` tests, and the only thing a
stimulus tests before its effect. -/
theorem faultedBlockDoesNothing : Obligations.FaultedBlockDoesNothing := by
  refine fun i s hf => ⟨fun ha hrd => ?host, fun ha => ?stimulus⟩
  case host =>
    cases i with
    | rdReg idx => exact absurd rfl (hrd idx)
    | rxByte | txEmpty | tmrExp => nomatch ha
    | _ => exact guarded_of_faulted hf _ _
  case stimulus =>
    cases i with
    | rxByte | txEmpty | tmrExp =>
      simp only [exec, execRxByte, execTxEmpty, execTmrExp, unlessFaulted_of_faulted hf, State.quiet]
    | _ => exact absurd rfl ha

/-! ## Answers -/

/-- R230, R238: the host's operations answer, and the stimuli do not. -/
theorem Did.rsp_isSome_iff {i : Instr} {s t : State} (hd : Did i s t) :
    t.out.rsp.isSome = true ↔ i.agent = .host := by
  cases hd with
  | refused _ ha => exact iff_of_true rfl ha
  | ignored ha => exact iff_of_false nofun ha
  | _ => simp [Instr.agent]

/-- R230: two outcomes answer anything but `Ok`, a refusal and the `INIT` that the collaborator turns down. -/
theorem Did.not_ok_effects {i : Instr} {s t : State} (hd : Did i s t) {r : Response} (hr : t.out.rsp = some r)
    (hne : r.status ≠ .ok) :
    t = { s with out := t.out } ∧ r.data = 0 ∧ t.out.tx = none ∧ t.out.tmr = none ∧ t.out.ev = none ∧
      (r.status ≠ .portError → t.out.cfg = none) := by
  cases hd with
  | refused =>
    obtain rfl := Option.some.inj hr
    exact ⟨rfl, rfl, rfl, rfl, rfl, fun _ => rfl⟩
  | portError =>
    obtain rfl := Option.some.inj hr
    exact ⟨rfl, rfl, rfl, rfl, rfl, fun hport => absurd rfl hport⟩
  | _ => cases hr <;> exact absurd rfl hne

/-- Settles O33, by the outcomes of an operation. -/
theorem refusedOperationChangesNothing : Obligations.RefusedOperationChangesNothing := by
  intro i s t ha h
  have hd := exec_did h
  obtain ⟨r, hr⟩ := Option.isSome_iff_exists.mp (hd.rsp_isSome_iff.mpr ha)
  exact ⟨r, hr, hd.not_ok_effects hr⟩

/-! ## Events -/

/-- The events that the three conditions of an expiry can select (R215). -/
def selectableEvents : List Event :=
  [⟨.ready, .none⟩, ⟨.frameReceived, .none⟩, ⟨.errorProcess, .receiveDataError⟩, ⟨.errorProcess, .respondTimeout⟩,
    ⟨.execute, .none⟩]

/-- R241: two codes of R106 are never produced, and the tag tells the two errors apart. -/
theorem selectableEvents_codes : ∀ e ∈ selectableEvents,
    e.code ≠ .frameSent ∧ e.tag ≠ .executeFunctionError ∧ (e.code = .errorProcess ↔ e.tag ≠ .none) := by
  decide

theorem State.eq_of_sendEvent {s : State} {e : Event} (h : s.sendEvent = some e) :
    e = ⟨.errorProcess, .respondTimeout⟩ :=
  (Option.some.inj (Option.ite_none_right_eq_some.mp h).2).symm

theorem State.eq_of_modeEvent {s : State} {e : Event} (h : s.modeEvent = some e) : e = ⟨.execute, .none⟩ :=
  (Option.some.inj (Option.ite_none_right_eq_some.mp h).2).symm

theorem State.expiryEvent_mem {s : State} {e : Event} (h : s.expiryEvent = some e) : e ∈ selectableEvents := by
  cases hr : s.rcvState with
  | init =>
    rw [State.expiryEvent_of_init hr] at h
    cases h
    decide
  | receiving =>
    rw [State.expiryEvent_of_receiving hr] at h
    cases h
    decide
  | error =>
    rw [State.expiryEvent_of_error hr] at h
    cases h
    decide
  | idle =>
    cases hs : s.sendEvent with
    | some e' =>
      rw [State.expiryEvent_of_sendEvent hr hs] at h
      cases h
      rw [State.eq_of_sendEvent hs]
      decide
    | none =>
      rw [State.expiryEvent_of_no_sendEvent hr hs] at h
      rw [State.eq_of_modeEvent h]
      decide

/-! ## Sources -/

/-- R240: the expiry that completes hands out the event it selected. -/
theorem Did.ev_source {i : Instr} {s t : State} (hd : Did i s t) (hne : t.out.ev ≠ none) :
    i = .tmrExp ∧ t.out.ev = s.expiryEvent := by
  cases hd with
  | expired => exact ⟨rfl, rfl⟩
  | _ => simp at hne

/-- R246. -/
theorem Did.tx_source {i : Instr} {s t : State} (hd : Did i s t) (hne : t.out.tx ≠ none) : i = .txEmpty := by
  cases hd with
  | emitted => rfl
  | _ => simp at hne

/-- R150: `INIT` asks the collaborator whether or not it is turned down. -/
theorem Did.cfg_source {i : Instr} {s t : State} (hd : Did i s t) (hne : t.out.cfg ≠ none) :
    ∃ baud parity, i = .init baud parity := by
  cases hd with
  | configured => exact ⟨_, _, rfl⟩
  | portError => exact ⟨_, _, rfl⟩
  | _ => simp at hne

/-- Settles O34: each output has one source, and the only events are those that an expiry selects. -/
theorem outputsComeFromTheirOperations : Obligations.OutputsComeFromTheirOperations := by
  intro i s t h
  have hd := exec_did h
  refine ⟨fun hi => ?ev, fun e he => ?codes, fun ha => ?rsp, fun hi => ?tx, fun hi => ?cfg⟩
  case ev => exact of_not_not fun hne => hi (hd.ev_source hne).1
  case codes =>
    obtain ⟨-, hev⟩ := hd.ev_source (he ▸ Option.some_ne_none e)
    exact selectableEvents_codes e (State.expiryEvent_mem (hev.symm.trans he))
  case rsp => exact Option.not_isSome_iff_eq_none.mp (mt hd.rsp_isSome_iff.mp ha)
  case tx => exact of_not_not (mt hd.tx_source hi)
  case cfg =>
    refine of_not_not fun hne => ?_
    obtain ⟨baud, parity, hi'⟩ := hd.cfg_source hne
    exact hi baud parity hi'

end Sys2Proof.Machine

/-! Proofs. While the environment keeps its contract (R290): what `ContractInv` adds to the invariants of R52 survives
every outcome that the contract admits, and every expiry has one event to hand out. -/

namespace Sys2Proof.Machine

/-! ## The contract on operations -/

/-- E1, E2, E3 and E5 of R290 for an operation: `PortEvent.keepsContract` of the event that asks for it. -/
def KeepsContract (i : Instr) (s : State) : Prop :=
  match i with
  | .start => s.sndState = .idle
  | .stop => s.sndState = .idle
  | .rxByte _ => s.rxEn = true
  | .txEmpty => s.txEn = true
  | .tmrExp => s.tmrArmed = true
  | _ => True

theorem PortEvent.Asks.keepsContract {e : PortEvent} {i : Instr} (hi : e.Asks i) {s : State}
    (hk : e.keepsContract s) : KeepsContract i s := by
  cases hi with
  | command hw =>
    cases i with
    | start => exact hk (.inl hw)
    | stop => exact hk (.inr hw)
    | rxByte | txEmpty | tmrExp => nomatch agent_of_decodeOn hw
    | _ => trivial
  | rxValid => exact hk
  | txEmpty => exact hk
  | tmrExpired => exact hk

/-! ## The kinds of state that an outcome leads to -/

section Kinds

variable {t : State} (hinv : t.Inv) (hsafe : t.Safe)
include hinv hsafe

/-- No transaction is open and no timer runs. -/
theorem State.contractInv_of_disarmed (hs : t.sndState = .idle) (ha : t.tmrArmed = false) : t.ContractInv where
  inv := hinv
  safe := hsafe
  transmitting := by simp [hs]
  synchronising := fun _ => hs
  frameTiming := by simp [ha]

/-- The receiver waits for t3.5 of silence. -/
theorem State.contractInv_of_frameTiming (hr : t.rcvState ≠ .idle) (hm : t.tmrMode = .interFrameDelay)
    (hs : t.sndState ≠ .transmitting) (hsync : t.rcvState = .init → t.sndState = .idle) : t.ContractInv where
  inv := hinv
  safe := hsafe
  transmitting := fun ht => absurd ht hs
  synchronising := hsync
  frameTiming := fun _ => iff_of_true hm hr

/-- R202: the frame is out, and what the timer measures is the follow-up. -/
theorem State.contractInv_of_followUp (hs : t.sndState = .waitFollowUp) (hr : t.rcvState = .idle)
    (hm : t.tmrMode ≠ .interFrameDelay) : t.ContractInv where
  inv := hinv
  safe := hsafe
  transmitting := by simp [hs]
  synchronising := by simp [hr]
  frameTiming := fun _ => iff_of_false hm (not_not_intro hr)

end Kinds

/-! ## What the contract excludes -/

/-- R52 item 8: with both state machines Idle there is nothing to time. -/
theorem State.Inv.tmrArmed_of_idle {s : State} (h : s.Inv) (hr : s.rcvState = .idle) (hs : s.sndState = .idle) :
    s.tmrArmed = false := by
  by_contra ha
  simpa [hr, hs] using h.armedIsWaiting (by simpa using ha)

section Contract

variable {s : State} (h : s.ContractInv)
include h

/-- The invariant does not see what is presented. -/
theorem State.ContractInv.presented (es : List PortEvent) (c : Bool) :
    { s with pending := es, cfgOk := c }.ContractInv :=
  { h with inv := h.inv.presented es c }

/-- R176 (g): the receive path is off while a frame goes out. -/
theorem State.ContractInv.not_transmitting_of_rxEn (hrx : s.rxEn = true) : s.sndState ≠ .transmitting := by
  intro ht
  obtain ⟨-, hoff, -⟩ := h.transmitting ht
  simp [hrx] at hoff

/-- R249: no timer runs while a frame goes out. -/
theorem State.ContractInv.not_transmitting_of_armed (ha : s.tmrArmed = true) : s.sndState ≠ .transmitting := by
  intro ht
  obtain ⟨-, -, -, hoff⟩ := h.transmitting ht
  simp [ha] at hoff

end Contract

/-! ## Every step -/

section Outcome

variable {i : Instr} {s t : State} (hd : Did i s t) (h : s.ContractInv) (hk : KeepsContract i s)
include hd h hk

/-- R290: a kept contract excludes both causes of a fault. -/
theorem Did.safe : t.Safe := by
  by_contra hne
  obtain ⟨-, ⟨rfl, ht, -⟩ | ⟨rfl, hw, -⟩⟩ := hd.fault_causes fun heq => hne (heq.trans h.safe)
  · exact h.not_transmitting_of_armed hk ht
  · have ht : s.sndState = .transmitting := h.inv.txWhileTransmitting hk
    simp [hw] at ht

/-- R290, at every outcome that a kept contract admits. -/
theorem Did.contractInv : t.ContractInv := by
  have hinv := hd.inv h.inv
  have hsafe := hd.safe h hk
  cases hd with
  | started =>
    have hs : s.sndState = .idle := hk
    exact State.contractInv_of_frameTiming hinv hsafe nofun rfl (by simp [hs]) fun _ => hs
  | stopped => exact State.contractInv_of_disarmed hinv hsafe hk rfl
  | sent _ _ _ _ hr hs =>
    have ha := h.inv.tmrArmed_of_idle hr hs
    exact
      { inv := hinv
        safe := hsafe
        transmitting := fun _ => ⟨by simpa using hr, rfl, rfl, by simpa using ha⟩
        synchronising := by simp [hr]
        frameTiming := by simp [ha] }
  | dropped _ hr =>
    have hne : s.rcvState ≠ .idle := by rcases hr with hr | hr <;> simp [hr]
    exact State.contractInv_of_frameTiming hinv hsafe hne rfl (h.not_transmitting_of_rxEn hk) h.synchronising
  | firstByte =>
    exact State.contractInv_of_frameTiming hinv hsafe nofun rfl (h.not_transmitting_of_rxEn hk) nofun
  | nextByte _ hr =>
    have hne : s.rcvState ≠ .idle := by simp [hr]
    exact State.contractInv_of_frameTiming hinv hsafe hne rfl (h.not_transmitting_of_rxEn hk) h.synchronising
  | oversized =>
    exact State.contractInv_of_frameTiming hinv hsafe nofun rfl (h.not_transmitting_of_rxEn hk) nofun
  | turnedAround _ hs => exact { h with inv := hinv, transmitting := by simp [hs] }
  | broadcastDone _ hs =>
    obtain ⟨hr, -⟩ := h.transmitting hs
    exact State.contractInv_of_followUp hinv hsafe rfl hr nofun
  | unicastDone _ hs =>
    obtain ⟨hr, -⟩ := h.transmitting hs
    exact State.contractInv_of_followUp hinv hsafe rfl hr nofun
  | expired => exact State.contractInv_of_disarmed hinv hsafe rfl rfl
  | _ => exact { h with inv := hinv, safe := hsafe }

end Outcome

/-- R290, whatever is presented by an environment that keeps its contract. -/
theorem step_contractInv {s t : State} {e : PortEvent} {rest : List PortEvent} (h : s.ContractInv)
    (hp : s.pending = e :: rest) (hk : e.keepsContract s) (hstep : step s = .next t) : t.ContractInv := by
  have hinv := step_inv h.inv hstep
  rw [step_cons hp] at hstep
  rcases serve_cases hstep with ⟨-, rfl⟩ | ⟨_, _, _, -, -, rfl⟩ | ⟨i, hi, hexec⟩
  · exact State.contractInv_of_disarmed hinv rfl rfl rfl
  · exact { h with inv := hinv }
  · exact (exec_did hexec).contractInv (h.presented rest _) (hi.keepsContract hk)

/-- Settles O43: under the invariants a step goes on, and what it leads to is one of the outcomes of a kept contract. -/
theorem keptContractKeepsTheBlockSafe : Obligations.KeptContractKeepsTheBlockSafe := by
  intro s e rest h hp hk
  obtain ⟨t, hstep⟩ := invariantStatesAlwaysStep s h.inv
  exact ⟨t, hstep, step_contractInv h hp hk hstep⟩

/-! ## Every expiry -/

section Expiry

variable {s : State} (h : s.ContractInv) (ha : s.tmrArmed = true)
include h ha

theorem State.ContractInv.interFrame_of_receiver (hr : s.rcvState ≠ .idle) : s.tmrMode = .interFrameDelay :=
  (h.frameTiming ha).mpr hr

/-- R290, rows 12 and 14 of R215: with the receiver Idle the running timer measures a follow-up, and the
broadcast mark says which. -/
theorem State.ContractInv.followUp_of_idle (hr : s.rcvState = .idle) :
    s.sndState = .waitFollowUp ∧
      ((s.isBcast = false ∧ s.tmrMode = .respondTimeout) ∨ (s.isBcast = true ∧ s.tmrMode = .convertDelay)) := by
  cases hm : s.tmrMode with
  | interFrameDelay => exact absurd hr ((h.frameTiming ha).mp hm)
  | respondTimeout =>
    obtain ⟨hs, hb⟩ := h.inv.respondTiming ha hm
    exact ⟨hs, .inl ⟨hb, rfl⟩⟩
  | convertDelay =>
    obtain ⟨hs, hb⟩ := h.inv.convertTiming ha hm
    exact ⟨hs, .inr ⟨hb, rfl⟩⟩

/-- R210: the expiry completes, with the event that the state selects. -/
theorem State.ContractInv.step_tmrExpired {a : Bool} {rest : List PortEvent} (hp : s.pending = .tmrExpired a :: rest)
    {ev : Option Event} (hev : s.expiryEvent = ev) :
    step s = .next { s with
      pending := rest, rcvState := .idle, sndState := .idle, tmrArmed := false,
      out := { tmr := some .disarm, ev := ev } } :=
  (step_of_asks hp .tmrExpired).trans
    (exec_tmrExp_of_expiryEvent (s := { s with pending := rest }) h.safe (h.not_transmitting_of_armed ha) hev)

end Expiry

/-- Settles O44: the receiver's state selects the event, and where it is Idle the follow-up that is timed does. -/
theorem expiryUnderContractTellsTheHostOnce : Obligations.ExpiryUnderContractTellsTheHostOnce := by
  intro s a rest h hp ha
  cases hr : s.rcvState with
  | init =>
    have hm := h.interFrame_of_receiver ha (by simp [hr])
    exact ⟨_, _, h.step_tmrExpired ha hp (State.expiryEvent_of_init hr), rfl, rfl, rfl, rfl,
      fun _ => ⟨h.synchronising hr, hm, rfl⟩, nofun, nofun, nofun⟩
  | receiving =>
    have hm := h.interFrame_of_receiver ha (by simp [hr])
    exact ⟨_, _, h.step_tmrExpired ha hp (State.expiryEvent_of_receiving hr), rfl, rfl, rfl, rfl,
      nofun, fun _ => ⟨hm, rfl⟩, nofun, nofun⟩
  | error =>
    have hm := h.interFrame_of_receiver ha (by simp [hr])
    exact ⟨_, _, h.step_tmrExpired ha hp (State.expiryEvent_of_error hr), rfl, rfl, rfl, rfl,
      nofun, nofun, fun _ => ⟨hm, rfl⟩, nofun⟩
  | idle =>
    obtain ⟨hs, ⟨hb, hm⟩ | ⟨hb, hm⟩⟩ := h.followUp_of_idle ha hr
    · have hev := State.expiryEvent_of_sendEvent hr (State.sendEvent_of_unicast hs hb)
      exact ⟨_, _, h.step_tmrExpired ha hp hev, rfl, rfl, rfl, rfl,
        nofun, nofun, nofun, fun _ => ⟨hs, .inl ⟨hb, hm, rfl⟩⟩⟩
    · have hev := State.expiryEvent_of_no_sendEvent hr (State.sendEvent_of_isBcast hb)
      rw [State.modeEvent_of_convertDelay hm] at hev
      exact ⟨_, _, h.step_tmrExpired ha hp hev, rfl, rfl, rfl, rfl,
        nofun, nofun, nofun, fun _ => ⟨hs, .inr ⟨hb, hm, rfl⟩⟩⟩

end Sys2Proof.Machine

/-! Proofs. The block waits (R281), and what each operation does straight after reset (R282). -/

namespace Sys2Proof.Machine

/-- Settles O10: with nothing presented the outputs are cleared, and every other field is kept. -/
theorem blockWaitsWhenNothingIsPresented : Obligations.BlockWaitsWhenNothingIsPresented :=
  fun _ => step_nil

/-- R282: the status words after reset. -/
theorem State.readReg_reset (r : StatusReg) : State.reset.readReg r = 0 := by
  cases r <;> rfl

/-- R47: the indices that name a register. -/
theorem StatusReg.exists_ofIdx {idx : BitVec 4} (h : idx.toNat ≤ 5) : ∃ r, StatusReg.ofIdx idx = some r := by
  rw [← Option.isSome_iff_exists]
  revert idx
  decide

/-- R282: nothing but `INIT` configures the block. -/
theorem init_of_configured_after_reset {i : Instr} {c : Bool} {t : State}
    (h : exec i { State.reset with cfgOk := c } = .next t) (hc : t.configured = true) :
    ∃ baud parity, i = .init baud parity :=
  (exec_did h).config_writers (.inl fun heq => nomatch hc.symm.trans heq)

/-- Settles O55, row by row of R282: nothing is faulted, configured, owned or timed, so each operation's own lemma says
which of its outcomes is left. -/
theorem firstOperationAfterReset : Obligations.FirstOperationAfterReset := by
  have hread : State.reset.rcvState ≠ .receiving := nofun
  have hsend : State.reset.sndState ≠ .transmitting := nofun
  refine ⟨fun baud parity c => answersOnly_init_invalidArg rfl, fun baud q hb => exec_init_of_domain rfl hb,
    fun baud q hb => exec_init_of_domain rfl hb, fun i c t => init_of_configured_after_reset,
    ?start, ?stop, fun addr len => ?send, answersOnly_receive_short rfl hread hsend (by decide),
    fun off hoff => ?crcEmpty,
    fun off len hb => answersOnly_crc16 rfl hb hread hsend,
    answersOnly_verify (len := 0) rfl (Nat.zero_le _) hread hsend,
    fun len hb => answersOnly_verify rfl hb hread hsend, fun idx hidx => ?rdReg, fun off hoff => ?bufRd,
    fun off data hoff => ?bufWr, fun b => ?rxByte, ?txEmpty, ?tmrExp⟩
  case start =>
    obtain ⟨-, hunconfigured, -⟩ := startSynchronisesOrRefuses State.reset
    exact hunconfigured rfl rfl
  case stop =>
    obtain ⟨-, hunconfigured, -⟩ := stopQuietensOrRefuses State.reset
    exact hunconfigured rfl rfl
  case send =>
    obtain ⟨-, hunconfigured, -⟩ := sendFramesInPlaceOrRefuses addr len State.reset
    exact hunconfigured rfl rfl
  case crcEmpty =>
    have hvalue := answersOnly_crc16 (off := off) (len := 0#12) (s := State.reset) rfl hoff hread hsend
    rw [BitVec.toNat_zero, State.memRead_zero] at hvalue
    exact hvalue
  case rdReg =>
    obtain ⟨r, hr⟩ := StatusReg.exists_ofIdx hidx
    exact State.readReg_reset r ▸ answersOnly_rdReg hr State.reset
  case bufRd =>
    rw [BitVec.setWidth_eq_append (by decide)]
    exact answersOnly_bufRd rfl hoff hread hsend
  case bufWr =>
    exact ⟨_, (checksBuffer_bufWr off data _).exec_eq_effect rfl (badOffset_eq_false_iff.mpr hoff) hread hsend, rfl,
      State.cell_setCell_same _ _ _⟩
  case rxByte => exact ⟨_, exec_rxByte_of_init rfl rfl b, rfl, rfl, rfl, fun _ => rfl⟩
  case txEmpty => exact ⟨_, execTxEmpty_of_idle rfl rfl, rfl⟩
  case tmrExp => exact ⟨_, exec_tmrExp_of_expiryEvent rfl hsend (State.expiryEvent_of_init rfl), rfl, rfl⟩

end Sys2Proof.Machine
